-- ==== Sys2Proof/Word.lean ====
section
/-!
DEFINITION. The values the block moves: bytes, pixels, stored HSV records, the levels of the input lines,
the mode tag's names and the symbols of the output trace (spec 00_scope.md R6 to R8, R12; 10_state.md R30, R31).
Nothing here computes: packing, unpacking and arithmetic stand under Machine/.
-/

namespace Sys2Proof

/-- Eight bits: a channel intensity, a saturation, a value, a wire pattern (R12, R95). -/
abbrev Byte := BitVec 8

/-- A stored hue: 16 bits of which 0 to `HUE_MAX` are used (R31). -/
abbrev Hue := BitVec 16

/-- An `EncoderSample`, 2 bits (R12, R92). -/
abbrev Sample := BitVec 2

/-- `Pixel`: "{R, G, B}: each an 8-bit intensity" (R12). -/
structure Pixel where
  r : Byte
  g : Byte
  b : Byte
deriving DecidableEq, Repr, Inhabited

/-- `PixelHSV`: "{H: 0..HUE_MAX, S: 0..255, V: 0..255}" (R12, R31). -/
structure PixelHSV where
  h : Hue
  s : Byte
  v : Byte
deriving DecidableEq, Repr, Inhabited

/-- `EffectMode`, the four rendering modes (R35, R98). -/
inductive EffectMode where
  | singleHighlight
  | paletteFrame
  | fadingHighlight
  | selectedHighlightOnly
deriving DecidableEq, Repr, Inhabited

/-- The electrical levels of the three input lines, `true` for high (R7 `PinRead`, R60, R91). -/
structure Pins where
  encA : Bool
  encB : Bool
  btn  : Bool
deriving DecidableEq, Repr, Inhabited

/-- One symbol of the output trace `wire` (R7, R8): eight bits driven on `PIX_OUT`, an inactivity of at least
so many microseconds, or the interrupt mask output going to a level. -/
inductive Sym where
  | byte (b : Byte)
  | gap  (us : Nat)
  | mask (m : Bool)
deriving DecidableEq, Repr, Inhabited

/-- The three channels of a pixel, in the order the wire sends them: G, then R, then B (R65). -/
inductive Channel where
  | g
  | r
  | b
deriving DecidableEq, Repr, Inhabited

/-- A non-zero step of the encoder: the operand of `QDEC.GATE`, "−1 or +1" (R153). -/
inductive Dir where
  | minus
  | plus
deriving DecidableEq, Repr, Inhabited

/-- The signed value the transition table gives a differing pair: −1, 0 or +1 (R12, R152). -/
inductive Step where
  | minus
  | zero
  | plus
deriving DecidableEq, Repr, Inhabited

end Sys2Proof
end

