-- ==== Sys2Proof/Config.lean ====
section
/-!
DEFINITION. The configuration record `Cfg` (00_scope.md R5) and the free values.
`Cfg` is plain data and fixed for the machine. The free values are constants with no body: no proof can see what they
are, so a claim about one holds for every value. Their log entries are 3, 4, 6, 7, 8, 11, 18 and 37.
-/

namespace Sys2Proof

/-- Which function the `Cfg` field `HSV2RGB` is (R5, R182): the reference function of R184, or any other one, which the
model leaves free. Log 3. -/
inductive HsvFn where
  | reference
  | free (k : Nat)
deriving DecidableEq, Repr, Inhabited

/-- "Configuration constants (compile-time, not runtime-reconfigurable)": one field per row of R5's table. -/
structure Cfg where
  /-- `N`, the ring length -/
  n           : Nat
  /-- `HUE_MAX`, the largest hue value -/
  hueMax      : Nat
  /-- `SAT`, the S shared by all pixels -/
  sat         : Byte
  /-- `V_BRIGHT`, the "fixed bright V" -/
  vBright     : Byte
  /-- `V_FLOOR`, the "floor value" of V -/
  vFloor      : Byte
  /-- `V_DECAY`, the "fixed decay step" -/
  vDecay      : Byte
  /-- `SH_ON`, the SingleHighlight "on" colour -/
  shOn        : Pixel
  /-- `SH_OFF`, the SingleHighlight "off" colour -/
  shOff       : Pixel
  /-- `PALETTE`, the N colours of PaletteFrame -/
  palette     : List Pixel
  /-- `PAT_ONE`, the wire pattern of a logical 1 -/
  patOne      : Byte
  /-- `PAT_ZERO`, the wire pattern of a logical 0 -/
  patZero     : Byte
  /-- `GAP_PRE_US`, leading inactivity before the init blank, a lower bound -/
  gapPreUs    : Nat
  /-- `GAP_BLANK_US`, trailing inactivity after the init blank, a lower bound -/
  gapBlankUs  : Nat
  /-- `GAP_SHOW_US`, inactivity after a frame, a lower bound -/
  gapShowUs   : Nat
  /-- `TICK_DELAY_US`: read by no rule (R238) -/
  tickDelayUs : Nat
  /-- `W_ACC`, the width of `rotationAccumulator` -/
  wAcc        : Nat
  /-- `RESET_MODE`, the value of `activeMode` after reset -/
  resetMode   : EffectMode
  /-- `F_SCK`, the bit clock: OPEN, read by no rule, no default (D3) -/
  fSck        : Option Nat
  /-- `HSV2RGB`, the colour conversion -/
  hsvFn       : HsvFn
deriving DecidableEq, Repr

/-- The constraint column of R5's table but for its last row, each row a check that computes (the gap minimums are R287's).
The last row, the properties of `HSV2RGB`, is `HsvFn.lawful` of Machine/Colour.lean, and `Cfg.valid` there is all of the
column. -/
def Cfg.wf (c : Cfg) : Bool :=
  decide (1 ≤ c.n) && decide (c.hueMax = 1535) && decide (c.vFloor ≤ c.vBright) && decide (1#8 ≤ c.vDecay)
    && decide (c.shOn ≠ c.shOff) && decide (c.palette.length = c.n) && decide c.palette.Nodup
    && decide (c.patOne ≠ c.patZero) && decide (20 ≤ c.gapPreUs) && decide (50 ≤ c.gapBlankUs)
    && decide (10 ≤ c.gapShowUs) && decide (2 ≤ c.wAcc)

/-- FREE VALUE. The levels the environment puts on the three lines, as a pin word (R63: "the value is the environment's,
under no law (a draw)"); applied to the counter `State.fresh`. Log 11. -/
opaque Config.drawPinWord : Nat → BitVec 3

/-- FREE VALUE. A number the spec leaves unspecified; applied to the counter `State.fresh`. Logs 6, 7, 8. -/
opaque Config.freeNat : Nat → Nat

/-- FREE VALUE. A bit the spec leaves unspecified; applied to the counter `State.fresh`. Log 6. -/
opaque Config.freeBit : Nat → Bool

/-- FREE VALUE. The colour conversion of a machine whose `HSV2RGB` is not the reference function (R182, U2);
`k` tells one such function from another. The properties R183 requires of it are `HsvFn.lawful`. Log 3. -/
opaque Config.freeHsv2rgb : Nat → Hue → Byte → Byte → Pixel

/-- FREE VALUE. What the reference function gives for a hue above `HUE_MAX`: "`HSV2RGB` need not be defined for them"
(R101). Log 4. -/
opaque Config.hsvAboveMax : Hue → Byte → Byte → Pixel

/-- FREE VALUE. What `HUE.INIT` gives for an index past the ring: its rule takes `i` in `[0, N)` and states no hue beyond
(R180). Log 37. -/
opaque Config.hueBeyondRing : Cfg → Nat → Nat

/-- FREE VALUE. What a read of a cell that the record lacks gives; no reachable state has one (R46). Log 18. -/
opaque Config.missingCell : Nat → PixelHSV

/-- FREE VALUE. What `PALETTE[i]` is where the list lacks the entry; no `Cfg` that meets its constraints has one (R5).
Log 18. -/
opaque Config.missingColour : Nat → Pixel

end Sys2Proof
end

