-- ==== Sys2Proof/Machine/Operands.lean ====
section
/-!
DEFINITION. Operand assembly and the packed forms of 30_encoding.md: the sample and the button from the line levels
(R92), the transition code (R93), the pixel's 24-bit wire word (R96), the stored record's 32 bits (R100), the mode tags
(R98). No value is sign- or zero-extended, scaled or shifted (R92).
-/

namespace Sys2Proof

/-- `q[1] = ~PinRead(ENC_A)`, `q[0] = ~PinRead(ENC_B)` (R92). -/
def Pins.sample (p : Pins) : Sample := BitVec.ofBool (!p.encA) ++ BitVec.ofBool (!p.encB)

/-- `btn = ~PinRead(BTN)`: low is pressed (R92). -/
def Pins.pressed (p : Pins) : Bool := !p.btn

/-- The levels the environment presents for a stimulus line `TICK q btn`: `IN = {~q[1], ~q[0], ~btn}` (R105). -/
def Pins.ofLogical (q : Sample) (btn : Bool) : Pins := ⟨!q.getLsbD 1, !q.getLsbD 0, !btn⟩

/-- `t = {was[1:0], is[1:0]}` (R93). -/
def transitionCode (was is : Sample) : BitVec 4 := was ++ is

/-- `w = {G[7:0], R[7:0], B[7:0]}` (R96). -/
def Pixel.wireWord (p : Pixel) : BitVec 24 := (p.g ++ p.r ++ p.b : BitVec 24)

/-- `{H[15:0], S[7:0], V[7:0]}` (R100). -/
def PixelHSV.pack (x : PixelHSV) : BitVec 32 := (x.h ++ x.s ++ x.v : BitVec 32)

/-- The record a 32-bit word holds (R100). -/
def PixelHSV.unpack (w : BitVec 32) : PixelHSV :=
  ⟨w.extractLsb' 16 16, w.extractLsb' 8 8, w.extractLsb' 0 8⟩

/-- The mode tag's code (R98). -/
def EffectMode.tag : EffectMode → BitVec 2
  | .singleHighlight => 0b00
  | .paletteFrame => 0b01
  | .fadingHighlight => 0b10
  | .selectedHighlightOnly => 0b11

/-- The direction of a non-zero step as a number. -/
def Dir.toInt : Dir → Int
  | .minus => -1
  | .plus => 1

/-- The step as a number (R152). -/
def Step.toInt : Step → Int
  | .minus => -1
  | .zero => 0
  | .plus => 1

/-- The eight bits of a byte, most significant first (R65). -/
def msbFirst (b : Byte) : List Bool := [7, 6, 5, 4, 3, 2, 1, 0].map b.getLsbD

end Sys2Proof
end

