-- ==== Sys2Proof/Syntax.lean ====
section
/-!
DEFINITION. The operations of the block: one constructor per row of spec/opcode_table.json (00_scope.md R4), and the
encoded operation: a format with its code, or a name with its operands (30_encoding.md R90).
-/

namespace Sys2Proof

/-- The operations of R4, each with the operands its rule gives it.
The rows `QT.NOP_wi` and `QDEC.STEP_wi` are the sixteen transition codes (was = w, is = i) of R94. -/
inductive Instr where
  -- format QT: the transition codes (R93, R94)
  | qtNop00
  | qdecStep01
  | qdecStep02
  | qdecStep03
  | qdecStep10
  | qtNop11
  | qdecStep12
  | qdecStep13
  | qdecStep20
  | qdecStep21
  | qtNop22
  | qdecStep23
  | qdecStep30
  | qdecStep31
  | qdecStep32
  | qtNop33
  -- format WB: the logical wire bits (R95, R123)
  | txBit0
  | txBit1
  -- format MT: the render function of a mode tag (R98)
  | renderSh
  | renderPf
  | renderFh
  | renderSel
  -- format EV: the decoder events (R99)
  | evRotUp
  | evRotDown
  | evBtnDown
  | evBtnUp
  -- format IN: one pass of the control loop with its pin word (R91, R235)
  | tick (pins : Pins)
  -- the operations selected by name
  | init
  | blank
  | txChan (c : Byte)
  | txPixel (p : Pixel)
  | txFrame (f : List Pixel)
  | showGap
  | irqMask
  | irqUnmask
  | qdecSample
  | qdecStep (was is : Sample)
  | qdecGate (d : Dir)
  | btnSample
  | hueInit (i : Nat)
  | hsv2rgb (x : PixelHSV)
  | fade
  | render
  | modeConfirm
  | modeDefault
  | reset
deriving DecidableEq, Repr

/-- The formats that carry a code selecting an operation (R90): the pin word, the transition code, the logical bit, the
mode tag and the event code. -/
inductive Format where
  | IN
  | QT
  | WB
  | MT
  | EV
deriving DecidableEq, Repr

/-- The operations that have no code: "none; selected by name" (R121). -/
inductive OpName where
  | INIT | BLANK | TX_CHAN | TX_PIXEL | TX_FRAME | SHOW | IRQ_MASK | IRQ_UNMASK
  | QDEC_SAMPLE | QDEC_STEP | QDEC_GATE | BTN_SAMPLE
  | HUE_INIT | HSV2RGB | FADE | RENDER | MODE_CONFIRM | MODE_DEFAULT | RESET
deriving DecidableEq, Repr

/-- An encoded operation: a code in one of the formats, or a name with its operands as numbers, in the order the
operation's rule lists them. The formats share their small codes, so the format is part of the encoding. Log 9, log 34. -/
inductive OpWord where
  | coded (fmt : Format) (bits : Nat)
  | named (op : OpName) (operands : List Int)
deriving DecidableEq, Repr

end Sys2Proof
end

