-- ==== Sys2Proof/WellFormed.lean ====
section
/-!
DEFINITION. Which operands can be passed to an operation at all. Not asked here: operands outside the range for which a
rule states the RESULT. Those operations run (logs 4, 29, 37).
-/

namespace Sys2Proof

/-- `TX.FRAME` takes "a sequence of exactly N `Pixel`s", and "A frame of another length than N cannot be passed" (R126).
Every other operand is bounded by its type. -/
def Instr.wellFormed (c : Cfg) : Instr → Bool
  | .txFrame f => decide (f.length = c.n)
  | .qtNop00 | .qdecStep01 | .qdecStep02 | .qdecStep03 | .qdecStep10 | .qtNop11 | .qdecStep12 | .qdecStep13
  | .qdecStep20 | .qdecStep21 | .qtNop22 | .qdecStep23 | .qdecStep30 | .qdecStep31 | .qdecStep32 | .qtNop33
  | .txBit0 | .txBit1 | .renderSh | .renderPf | .renderFh | .renderSel
  | .evRotUp | .evRotDown | .evBtnDown | .evBtnUp | .tick _
  | .init | .blank | .txChan _ | .txPixel _ | .showGap | .irqMask | .irqUnmask
  | .qdecSample | .qdecStep _ _ | .qdecGate _ | .btnSample | .hueInit _ | .hsv2rgb _ | .fade | .render | .modeConfirm | .modeDefault | .reset => true

end Sys2Proof
end

