-- ==== Sys2Proof/Decode.lean ====
section
/-!
DEFINITION. Decoding an encoded operation, total and rejecting by name, and the encoder, both written from
30_encoding.md R91 to R99. After them the two readings of an opcode-table word the host asks for (log 10).
-/

namespace Sys2Proof

/-- Why a word is no operation: a code wider than its format (R90), or a name whose operands are too many, too few or
outside the operand's width. -/
inductive DecodeError where
  | codeTooWide (fmt : Format) (bits : Nat)
  | badOperands (op : OpName) (operands : List Int)
deriving DecidableEq, Repr

/-- The width in bits of a format's code (R90). -/
def Format.width : Format → Nat
  | .IN => 3
  | .QT => 4
  | .WB => 1
  | .MT => 2
  | .EV => 2

/-- Bit `i` of a code, bit 0 the least significant (R6). -/
def codeBit (bits i : Nat) : Bool := bits.testBit i

/-- Format IN: `IN[2] = ENC_A`, `IN[1] = ENC_B`, `IN[0] = BTN` (R91). -/
def pinsOfCode (bits : Nat) : Pins := ⟨codeBit bits 2, codeBit bits 1, codeBit bits 0⟩

/-- The code of the three levels (R91). -/
def codeOfPins (p : Pins) : Nat := p.encA.toNat * 4 + p.encB.toNat * 2 + p.btn.toNat

/-- The pin word as three bits (R91). -/
def pinsOfWord (w : BitVec 3) : Pins := pinsOfCode w.toNat

/-- Format QT, `t = {was[1:0], is[1:0]}` (R93, R94). -/
def decodeQT : Nat → Option Instr
  | 0b0000 => some .qtNop00
  | 0b0001 => some .qdecStep01
  | 0b0010 => some .qdecStep02
  | 0b0011 => some .qdecStep03
  | 0b0100 => some .qdecStep10
  | 0b0101 => some .qtNop11
  | 0b0110 => some .qdecStep12
  | 0b0111 => some .qdecStep13
  | 0b1000 => some .qdecStep20
  | 0b1001 => some .qdecStep21
  | 0b1010 => some .qtNop22
  | 0b1011 => some .qdecStep23
  | 0b1100 => some .qdecStep30
  | 0b1101 => some .qdecStep31
  | 0b1110 => some .qdecStep32
  | 0b1111 => some .qtNop33
  | _ => none

/-- Format WB: a logical bit (R95). -/
def decodeWB : Nat → Option Instr
  | 0 => some .txBit0
  | 1 => some .txBit1
  | _ => none

/-- Format MT: the mode tag selects a render function (R98). -/
def decodeMT : Nat → Option Instr
  | 0b00 => some .renderSh
  | 0b01 => some .renderPf
  | 0b10 => some .renderFh
  | 0b11 => some .renderSel
  | _ => none

/-- Format EV: the event code (R99). -/
def decodeEV : Nat → Option Instr
  | 0b00 => some .evRotUp
  | 0b01 => some .evRotDown
  | 0b10 => some .evBtnDown
  | 0b11 => some .evBtnUp
  | _ => none

/-- Format IN: any of the eight pin words is a `TICK` (R105). -/
def decodeIN (bits : Nat) : Option Instr :=
  if bits < 8 then some (.tick (pinsOfCode bits)) else none

/-- The operation a code of a format selects. -/
def decodeCode : Format → Nat → Option Instr
  | .IN, bits => decodeIN bits
  | .QT, bits => decodeQT bits
  | .WB, bits => decodeWB bits
  | .MT, bits => decodeMT bits
  | .EV, bits => decodeEV bits

/-- An operand of `w` bits, unsigned. -/
def operandBits (w : Nat) (x : Int) : Option (BitVec w) :=
  if 0 ≤ x ∧ x.toNat < 2 ^ w then some (BitVec.ofNat w x.toNat) else none

/-- Operands three by three as pixels `R, G, B`. -/
def operandPixels : List Int → Option (List Pixel)
  | [] => some []
  | r :: g :: b :: rest => do
      some (⟨← operandBits 8 r, ← operandBits 8 g, ← operandBits 8 b⟩ :: (← operandPixels rest))
  | _ => none

/-- The operation a name selects, with its operands. -/
def decodeNamed : OpName → List Int → Option Instr
  | .INIT, [] => some .init
  | .BLANK, [] => some .blank
  | .TX_CHAN, [c] => do some (.txChan (← operandBits 8 c))
  | .TX_PIXEL, [r, g, b] => do some (.txPixel ⟨← operandBits 8 r, ← operandBits 8 g, ← operandBits 8 b⟩)
  | .TX_FRAME, f => do some (.txFrame (← operandPixels f))
  | .SHOW, [] => some .showGap
  | .IRQ_MASK, [] => some .irqMask
  | .IRQ_UNMASK, [] => some .irqUnmask
  | .QDEC_SAMPLE, [] => some .qdecSample
  | .QDEC_STEP, [was, is] => do some (.qdecStep (← operandBits 2 was) (← operandBits 2 is))
  | .QDEC_GATE, [s] => if s = -1 then some (.qdecGate .minus) else if s = 1 then some (.qdecGate .plus) else none
  | .BTN_SAMPLE, [] => some .btnSample
  | .HUE_INIT, [i] => if 0 ≤ i then some (.hueInit i.toNat) else none
  | .HSV2RGB, [h, s, v] => do some (.hsv2rgb ⟨← operandBits 16 h, ← operandBits 8 s, ← operandBits 8 v⟩)
  | .FADE, [] => some .fade
  | .RENDER, [] => some .render
  | .MODE_CONFIRM, [] => some .modeConfirm
  | .MODE_DEFAULT, [] => some .modeDefault
  | .RESET, [] => some .reset
  | _, _ => none

/-- Decoding, total: an operation, or the reason the word is none. -/
def decode : OpWord → Except DecodeError Instr
  | .coded fmt bits =>
    match decodeCode fmt bits with
    | some i => .ok i
    | none => .error (.codeTooWide fmt bits)
  | .named op operands =>
    match decodeNamed op operands with
    | some i => .ok i
    | none => .error (.badOperands op operands)

/-- A field of `w` bits as a number. -/
def bitsOperand {w : Nat} (x : BitVec w) : Int := (x.toNat : Int)

/-- The three operands of a pixel, in the order of the record: R, G, B. -/
def pixelOperands (p : Pixel) : List Int := [bitsOperand p.r, bitsOperand p.g, bitsOperand p.b]

/-- The encoding of an operation (R91 to R99, and the operand lines of the named operations' rules). -/
def encode : Instr → OpWord
  | .qtNop00 => .coded .QT 0b0000
  | .qdecStep01 => .coded .QT 0b0001
  | .qdecStep02 => .coded .QT 0b0010
  | .qdecStep03 => .coded .QT 0b0011
  | .qdecStep10 => .coded .QT 0b0100
  | .qtNop11 => .coded .QT 0b0101
  | .qdecStep12 => .coded .QT 0b0110
  | .qdecStep13 => .coded .QT 0b0111
  | .qdecStep20 => .coded .QT 0b1000
  | .qdecStep21 => .coded .QT 0b1001
  | .qtNop22 => .coded .QT 0b1010
  | .qdecStep23 => .coded .QT 0b1011
  | .qdecStep30 => .coded .QT 0b1100
  | .qdecStep31 => .coded .QT 0b1101
  | .qdecStep32 => .coded .QT 0b1110
  | .qtNop33 => .coded .QT 0b1111
  | .txBit0 => .coded .WB 0
  | .txBit1 => .coded .WB 1
  | .renderSh => .coded .MT 0b00
  | .renderPf => .coded .MT 0b01
  | .renderFh => .coded .MT 0b10
  | .renderSel => .coded .MT 0b11
  | .evRotUp => .coded .EV 0b00
  | .evRotDown => .coded .EV 0b01
  | .evBtnDown => .coded .EV 0b10
  | .evBtnUp => .coded .EV 0b11
  | .tick pins => .coded .IN (codeOfPins pins)
  | .init => .named .INIT []
  | .blank => .named .BLANK []
  | .txChan c => .named .TX_CHAN [bitsOperand c]
  | .txPixel p => .named .TX_PIXEL (pixelOperands p)
  | .txFrame f => .named .TX_FRAME (f.flatMap pixelOperands)
  | .showGap => .named .SHOW []
  | .irqMask => .named .IRQ_MASK []
  | .irqUnmask => .named .IRQ_UNMASK []
  | .qdecSample => .named .QDEC_SAMPLE []
  | .qdecStep was is => .named .QDEC_STEP [bitsOperand was, bitsOperand is]
  | .qdecGate .minus => .named .QDEC_GATE [-1]
  | .qdecGate .plus => .named .QDEC_GATE [1]
  | .btnSample => .named .BTN_SAMPLE []
  | .hueInit i => .named .HUE_INIT [(i : Int)]
  | .hsv2rgb x => .named .HSV2RGB [bitsOperand x.h, bitsOperand x.s, bitsOperand x.v]
  | .fade => .named .FADE []
  | .render => .named .RENDER []
  | .modeConfirm => .named .MODE_CONFIRM []
  | .modeDefault => .named .MODE_DEFAULT []
  | .reset => .named .RESET []

/-- The format an opcode-table word of `nbits` bits is read in: a width below a byte names the format of that width; a
whole byte or more is read as a transition code, the widest code of the table. The table's formats share their codes, so
no reading of the number alone gives every row. Log 10. -/
def tableFormat : Nat → Format
  | 1 => .WB
  | 2 => .MT
  | 3 => .IN
  | _ => .QT

/-- The encoded operation an opcode-table word stands for. Log 10. -/
def tableWord (nbits w : Nat) : OpWord := .coded (tableFormat nbits) w

/-- The operation the decoder reads from an opcode-table word. Log 10. -/
def decodeTableWord (nbits w : Nat) : Option Instr :=
  match decode (tableWord nbits w) with
  | .ok i => some i
  | .error _ => none

end Sys2Proof
end

