-- ==== Sys2Proof/Machine/Colour.lean ====
section
/-!
DEFINITION. The hue sweep and the colour conversion (42_effect_engine.md R180 to R184), and the properties R183 asks of
any conversion, with the configurations that have them. All arithmetic is on naturals and exact (R190).
-/

namespace Sys2Proof

/-- `HUE.INIT(i) = (i * (HUE_MAX + 1)) div N` (R180). -/
def Cfg.hueInit (c : Cfg) (i : Nat) : Nat := (i * (c.hueMax + 1)) / c.n

/-- The result of `HUE.INIT` for any index: the sweep on the ring (R180), and past it a free value (log 37). -/
def Cfg.hueAt (c : Cfg) (i : Nat) : Nat := if i < c.n then c.hueInit i else Config.hueBeyondRing c i

/-- A natural as a channel value; every result of the conversion fits (R184 corner case 4). -/
def channelValue (x : Nat) : Byte := BitVec.ofNat 8 x

/-- R184 `p <- (v * (255 - s)) div 255`. -/
def hsvP (s v : Nat) : Nat := (v * (255 - s)) / 255

/-- R184 `q <- (v * (65280 - s * f)) div 65280`. -/
def hsvQ (s v f : Nat) : Nat := (v * (65280 - s * f)) / 65280

/-- R184 `t <- (v * (65280 - s * (256 - f))) div 65280`. -/
def hsvT (s v f : Nat) : Nat := (v * (65280 - s * (256 - f))) / 65280

/-- The reference `HSV2RGB` of R184: six sectors of 256 hues. Above the sixth sector the spec defines nothing (R101): a
free value (log 4). -/
def hsv2rgbRef (h : Hue) (s v : Byte) : Pixel :=
  let f := h.toNat % 256
  let p := channelValue (hsvP s.toNat v.toNat)
  let q := channelValue (hsvQ s.toNat v.toNat f)
  let t := channelValue (hsvT s.toNat v.toNat f)
  match h.toNat / 256 with
  | 0 => ⟨v, t, p⟩
  | 1 => ⟨q, v, p⟩
  | 2 => ⟨p, v, t⟩
  | 3 => ⟨p, q, v⟩
  | 4 => ⟨t, p, v⟩
  | 5 => ⟨v, p, q⟩
  | _ => Config.hsvAboveMax h s v

/-- The `Cfg` field `HSV2RGB` (R182): the reference function, or a free one (log 3). -/
def Cfg.hsv2rgb (c : Cfg) (h : Hue) (s v : Byte) : Pixel :=
  match c.hsvFn with
  | .reference => hsv2rgbRef h s v
  | .free k => Config.freeHsv2rgb k h s v

/-- The conversion of one stored record (R182, R188). -/
def Cfg.toPixel (c : Cfg) (x : PixelHSV) : Pixel := c.hsv2rgb x.h x.s x.v

/-- Black, `(0, 0, 0)` (R12 "blank"). -/
def Pixel.black : Pixel := ⟨0, 0, 0⟩

/-- P2, "S=0 ⇒ grayscale" (R183). -/
def HsvGrey (f : Hue → Byte → Byte → Pixel) : Prop :=
  ∀ h v, h.toNat ≤ 1535 → ∃ c, f h 0 v = ⟨c, c, c⟩

/-- P3, "monotonic V scaling", and black at V = 0 (R183). -/
def HsvMonotoneInV (f : Hue → Byte → Byte → Pixel) : Prop :=
  ∀ h s, h.toNat ≤ 1535 → f h s 0 = Pixel.black ∧
    ∀ v v', v ≤ v' → (f h s v).r ≤ (f h s v').r ∧ (f h s v).g ≤ (f h s v').g ∧ (f h s v).b ≤ (f h s v').b

/-- P4, "correct primary/secondary hue placement": red, yellow, green, cyan, blue, magenta at the six sector starts
(R183). -/
def HsvPlacement (f : Hue → Byte → Byte → Pixel) : Prop :=
  f 0 255 255 = ⟨255, 0, 0⟩ ∧ f 256 255 255 = ⟨255, 255, 0⟩ ∧ f 512 255 255 = ⟨0, 255, 0⟩ ∧
    f 768 255 255 = ⟨0, 255, 255⟩ ∧ f 1024 255 255 = ⟨0, 0, 255⟩ ∧ f 1280 255 255 = ⟨255, 0, 255⟩

/-- One channel of a pixel. -/
def Pixel.channel (p : Pixel) : Channel → Byte
  | .g => p.g
  | .r => p.r
  | .b => p.b

/-- P5, "piecewise-linear": inside sector `k` one channel is constant at its maximum `hi`, one constant at its minimum
`lo`, and the third varies monotonically with `h` between them (R183). -/
def HsvPiecewise (f : Hue → Byte → Byte → Pixel) : Prop :=
  ∀ (k : Nat) (s v : Byte), k < 6 → ∃ top bottom moving : Channel, ∃ hi lo : Byte,
    top ≠ bottom ∧ top ≠ moving ∧ bottom ≠ moving ∧
    (∀ h : Hue, h.toNat / 256 = k → (f h s v).channel top = hi ∧ (f h s v).channel bottom = lo ∧
      lo ≤ (f h s v).channel moving ∧ (f h s v).channel moving ≤ hi) ∧
    ((∀ h h' : Hue, h.toNat / 256 = k → h'.toNat / 256 = k → h ≤ h' →
        (f h s v).channel moving ≤ (f h' s v).channel moving) ∨
     (∀ h h' : Hue, h.toNat / 256 = k → h'.toNat / 256 = k → h ≤ h' →
        (f h' s v).channel moving ≤ (f h s v).channel moving))

/-- What R5 and R183 ask of the `Cfg` field `HSV2RGB`; P1 (the result depends on the operands only) is that it is a
function. -/
def HsvLaws (f : Hue → Byte → Byte → Pixel) : Prop :=
  HsvGrey f ∧ HsvMonotoneInV f ∧ HsvPlacement f ∧ HsvPiecewise f

/-- The last row of R5's table: `HSV2RGB` is "required to have the properties of R183" (R182). Of the reference function
there is nothing to require: "The spec's reference function R184 has them" (R182), which
`Obligations.ReferenceConversionMeetsItsProperties` states. Log 3. -/
def HsvFn.lawful : HsvFn → Prop
  | .reference => True
  | .free k => HsvLaws (Config.freeHsv2rgb k)

/-- The whole constraint column of R5: what a configuration of the block meets. -/
def Cfg.valid (c : Cfg) : Prop := c.wf = true ∧ c.hsvFn.lawful

end Sys2Proof
end

