-- ==== Sys2Proof/Machine/Defaults.lean ====
section
/-!
DEFINITION. The default column of 00_scope.md R5: the configuration State.reset has. The defaults are the spec's own
choices but for N and the three gaps (log 2).
-/

namespace Sys2Proof

/-- `PALETTE[i] = HSV2RGB(HUE.INIT(i), 255, 255)` with the reference function (R5, R187, D18). -/
def defaultPalette (n hueMax : Nat) : List Pixel :=
  (List.range n).map fun i => hsv2rgbRef (BitVec.ofNat 16 ((i * (hueMax + 1)) / n)) 255 255

/-- The default column of R5 for a ring of `n` pixels. -/
def Cfg.defaultFor (n : Nat) : Cfg where
  n := n
  hueMax := 1535
  sat := 255
  vBright := 255
  vFloor := 16
  vDecay := 8
  shOn := ⟨255, 255, 255⟩
  shOff := ⟨0, 0, 16⟩
  palette := defaultPalette n 1535
  patOne := 0xF8
  patZero := 0xC0
  gapPreUs := 20
  gapBlankUs := 50
  gapShowUs := 10
  tickDelayUs := 2000
  wAcc := 8
  resetMode := .fadingHighlight
  fSck := none
  hsvFn := .reference

/-- R5's default column: `N = 24`. -/
def Cfg.default : Cfg := Cfg.defaultFor 24

end Sys2Proof
end

