-- ==== Sys2Proof/Machine/State.lean ====
section
/-!
DEFINITION. The state of the block (10_state.md), the configuration and trace it is carried with, the reasons a step can
stop, and the state after reset (R47, R280).
-/

namespace Sys2Proof.Machine

/-- `evRot`, "one of `none`, `up`, `down`" (R26). -/
inductive RotEvent where
  | none
  | up
  | down
deriving DecidableEq, Repr

/-- `evBtn`, "one of `none`, `down`, `up`": pressed, released (R26). -/
inductive BtnEvent where
  | none
  | down
  | up
deriving DecidableEq, Repr

/-- What an operation returned. The spec's operations return values (a step, an event, a hue, a pixel, a frame or
`skip`) and say of them that they are no state; the model keeps the last one so that a pure operation's result can be
read. Log 13. -/
inductive OpResult where
  | nothing
  | rot (e : RotEvent)
  | btn (e : BtnEvent)
  | step (s : Option Step)
  | hue (h : Nat)
  | pixel (p : Pixel)
  | frame (f : List Pixel)
  | skip
deriving DecidableEq, Repr

/-- `EncoderState` (R21). -/
structure EncoderState where
  /-- the last sample that differed from its predecessor (R22) -/
  was : Sample
  /-- the sample of the current or last tick (R23) -/
  is : Sample
  /-- `rotationAccumulator`, an integer in the range of `W_ACC` bits (R24) -/
  acc : Int
  /-- the button sample of the current tick, `true` pressed (R25) -/
  buttonNow : Bool
  /-- the last-observed button sample (R25) -/
  buttonLast : Bool
deriving DecidableEq, Repr

/-- `EngineState` (R30). -/
structure EngineState where
  /-- N stored pixels (R31) -/
  frameHSV : List PixelHSV
  /-- the pixel the user has selected (R34) -/
  highlightedIndex : Nat
  /-- the rendering mode (R35) -/
  activeMode : EffectMode
  /-- whether a frame has been rendered since reset (R35) -/
  lastRenderedValid : Bool
  /-- the highlighted index of the last frame transmitted (R35) -/
  lastRenderedIndex : Nat
deriving DecidableEq, Repr

/-- The driver's state: the mask bit (R40, R41) and the transient serializer state (R28, R43), with the level of the port
`PIX_OUT` (R120, log 27). -/
structure DriverState where
  /-- drives `IRQ_MASK`, `true` disabled (R41) -/
  irqMask : Bool
  /-- the 8-bit shift register (R43, R132) -/
  sr : Byte
  /-- the 3-bit count of bits left (R43, log 16) -/
  srLeft : BitVec 3
  /-- pixel position (R28) -/
  txPixel : Nat
  /-- channel position (R28) -/
  txChan : Channel
  /-- bit position (R28) -/
  txBit : BitVec 3
  /-- the level of `PIX_OUT`, `true` high (R132, log 27) -/
  pixOut : Bool
deriving DecidableEq, Repr

/-- The state `(enc, eng, drv)` of 10_state.md with what the model carries beside it. -/
structure State where
  /-- the configuration, never changed (R5, log 1) -/
  cfg : Cfg
  /-- the decoder's registers (R21) -/
  enc : EncoderState
  /-- the engine's registers (R30) -/
  eng : EngineState
  /-- the driver's registers (R40, R43) -/
  drv : DriverState
  /-- the input space: the levels now on the three lines (R60, log 17) -/
  pins : Pins
  /-- the output trace, oldest symbol first (R8, log 12) -/
  wire : List Sym
  /-- whether `INIT` has run since `RESET` (R239, R281, log 23) -/
  initDone : Bool
  /-- operations placed from outside, oldest first (R105, R240, log 9) -/
  queue : List OpWord
  /-- what the last operation returned (log 13) -/
  out : OpResult
  /-- the counter free values are drawn by (log 8) -/
  fresh : Nat
deriving DecidableEq, Repr

/-- The block has no fault: "There is no error type or recoverable-failure concept by design" (R10, R250). No one raises
one; that is neither safe nor unsafe. -/
inductive Fault
deriving DecidableEq, Repr

/-- Why a step has no meaning. -/
inductive Refusal where
  /-- raised by `exec` for an operation that has no meaning yet; no operation is left so. Safe: the run stops. -/
  | notModelled (mnemonic : String)
  /-- raised by `step` for a queued word that is no operation of the spec. Safe: the run stops, and the block itself
  never presents such a word (log 31). -/
  | undecodable (e : DecodeError)
  /-- raised by `step` for a queued `TX.FRAME` whose sequence has not N pixels, and for nothing else: "A frame of another
  length than N cannot be passed (the `Frame` type has "exactly N" pixels)" (R126). Safe: the run stops (log 31). -/
  | cannotBePassed (i : Instr)
deriving DecidableEq, Repr

/-- The decoder's registers after reset (R47, D24). -/
def EncoderState.reset : EncoderState := ⟨0, 0, 0, false, false⟩

/-- `frameHSV` after reset: `H = HUE.INIT(i)`, `S = SAT`, `V = V_FLOOR` (R47, R280). -/
def resetFrame (c : Cfg) : List PixelHSV :=
  (List.range c.n).map fun i => ⟨BitVec.ofNat 16 (c.hueInit i), c.sat, c.vFloor⟩

/-- The engine's registers after reset (R47, R280), `lastRenderedIndex` given: the spec leaves it unspecified. -/
def EngineState.reset (c : Cfg) (lastRenderedIndex : Nat) : EngineState where
  frameHSV := resetFrame c
  highlightedIndex := 0
  activeMode := c.resetMode
  lastRenderedValid := false
  lastRenderedIndex := lastRenderedIndex

/-- The driver's registers after reset; the spec leaves all of them unspecified (R47). DESIGN CHOICE, log 5. -/
def DriverState.reset : DriverState := ⟨false, 0, 0, 0, .g, 0, false⟩

/-- The machine right after reset, with a given configuration (R47). DESIGN CHOICE for `lastRenderedIndex`, the driver and
the line levels, log 5. -/
def State.resetWith (c : Cfg) : State where
  cfg := c
  enc := EncoderState.reset
  eng := EngineState.reset c 0
  drv := DriverState.reset
  pins := ⟨true, true, true⟩
  wire := []
  initDone := false
  queue := []
  out := .nothing
  fresh := 0

/-- The machine right after reset, with R5's default configuration (log 2). -/
def State.reset : State := State.resetWith Cfg.default

end Sys2Proof.Machine
end

