-- ==== Sys2Proof/Machine/Ops.lean ====
section
/-!
DEFINITION. The named operations over the registers and the spaces (00_scope.md R7): the field writes, the index space,
`PinRead`, `Emit`, the shift register under `Emit(Byte)` and the values left unspecified.
TAKING AN EXCEPTION and returning from one have no operation here: "The set of exception causes is empty", "There is no
trap entry" and "There is no trap return operation" (60_exceptions.md R250, R255, R256); log 24.
-/

namespace Sys2Proof.Machine

/-- The levels `PinRead` gives: a read has no side effect (R63, R68). -/
def State.readPins (s : State) : Pins := s.pins

/-- The environment puts levels on the three lines (R63). -/
def State.setPins (p : Pins) (s : State) : State := { s with pins := p }

/-- `enc.is <- q`. -/
def State.setIs (q : Sample) (s : State) : State := { s with enc := { s.enc with is := q } }

/-- `enc.was <- q`. -/
def State.setWas (q : Sample) (s : State) : State := { s with enc := { s.enc with was := q } }

/-- `enc.rotationAccumulator <- a`. -/
def State.setAcc (a : Int) (s : State) : State := { s with enc := { s.enc with acc := a } }

/-- `enc.buttonNow <- b`. -/
def State.setButtonNow (b : Bool) (s : State) : State := { s with enc := { s.enc with buttonNow := b } }

/-- `enc.buttonLast <- b`. -/
def State.setButtonLast (b : Bool) (s : State) : State := { s with enc := { s.enc with buttonLast := b } }

/-- `eng.highlightedIndex <- i`. -/
def State.setHighlighted (i : Nat) (s : State) : State := { s with eng := { s.eng with highlightedIndex := i } }

/-- `eng.activeMode <- m`. -/
def State.setMode (m : EffectMode) (s : State) : State := { s with eng := { s.eng with activeMode := m } }

/-- `eng.lastRenderedValid <- 1; eng.lastRenderedIndex <- eng.highlightedIndex` (R192). -/
def State.noteRendered (s : State) : State :=
  { s with eng := { s.eng with lastRenderedValid := true, lastRenderedIndex := s.eng.highlightedIndex } }

/-- All of `frameHSV` (R61). -/
def State.setFrameHSV (f : List PixelHSV) (s : State) : State := { s with eng := { s.eng with frameHSV := f } }

/-- `wrapinc(i)` (R7, R64). -/
def wrapinc (n i : Nat) : Nat := if i = n - 1 then 0 else i + 1

/-- `wrapdec(i)` (R7, R64). -/
def wrapdec (n i : Nat) : Nat := if i = 0 then n - 1 else i - 1

/-- "every index is first reduced to `[0,N)`", "so no access is ever out of range" (R31, R64). Log 18. -/
def State.cell (s : State) (i : Nat) : Nat := i % s.cfg.n

/-- `x[i]`, a read of `frameHSV[i]` (R7). Log 18. -/
def State.readCell (s : State) (i : Nat) : PixelHSV :=
  s.eng.frameHSV.getD (s.cell i) (Config.missingCell i)

/-- `x[i].V <- v` (R7). -/
def State.writeV (i : Nat) (v : Byte) (s : State) : State :=
  s.setFrameHSV (s.eng.frameHSV.modify (s.cell i) fun x => { x with v := v })

/-- `PALETTE[i]` (R5, R187). Log 18. -/
def paletteAt (c : Cfg) (i : Nat) : Pixel := c.palette.getD i (Config.missingColour i)

/-- `Emit(sym)`: append one symbol to the trace (R7, R8). -/
def State.emit (x : Sym) (s : State) : State := { s with wire := s.wire ++ [x] }

/-- One shift of the register under the wire (R132): `PIX_OUT <- drv.sr[7]`, then `drv.sr <- {drv.sr[6:0], 0}`; one bit
fewer is left (log 16). -/
def DriverState.shift (d : DriverState) : DriverState :=
  { d with pixOut := d.sr.getLsbD 7, sr := d.sr <<< 1, srLeft := if d.srLeft = 0 then 0 else d.srLeft - 1 }

/-- `drv.sr <- b`; seven bits are left after the one being driven (R132, log 16). -/
def DriverState.load (b : Byte) (d : DriverState) : DriverState := { d with sr := b, srLeft := 7 }

/-- `k` shifts. -/
def DriverState.shifts : Nat → DriverState → DriverState
  | 0, d => d
  | k + 1, d => DriverState.shifts k d.shift

/-- The levels `k` shifts drive on `PIX_OUT`, in order. -/
def DriverState.shiftLevels : Nat → DriverState → List Bool
  | 0, _ => []
  | k + 1, d => d.shift.pixOut :: DriverState.shiftLevels k d.shift

/-- `Emit(Byte(b))`: one load and eight shifts of the register, one symbol of the trace (R103, R132).
DESIGN CHOICE, log 35: all eight shifts are done when `Emit` returns, so the last byte of a frame has left the line before
`Mask(0)` and `SHOW`. The spec leaves that open: "The last byte may still be shifting when `SHOW` begins" (R128, N5). -/
def State.emitByte (b : Byte) (s : State) : State :=
  { s with drv := (s.drv.load b).shifts 8 }.emit (.byte b)

/-- `Emit(Gap(us))`: the line is inactive and rests low (R8, R103). -/
def State.emitGap (us : Nat) (s : State) : State :=
  { s with drv := { s.drv with pixOut := false } }.emit (.gap us)

/-- `drv.irqMask <- m; Emit(Mask(m))` (R129, R130). -/
def State.setIrqMask (m : Bool) (s : State) : State :=
  { s with drv := { s.drv with irqMask := m } }.emit (.mask m)

/-- `drv.txPixel <- i` (R28, R126). -/
def State.setTxPixel (i : Nat) (s : State) : State := { s with drv := { s.drv with txPixel := i } }

/-- The channel position (R28). -/
def State.setTxChan (c : Channel) (s : State) : State := { s with drv := { s.drv with txChan := c } }

/-- The bit position (R28). -/
def State.setTxBit (k : Nat) (s : State) : State := { s with drv := { s.drv with txBit := BitVec.ofNat 3 k } }

/-- An unspecified index in `[0, N)`: the bound is the spec's (R30, R28), the value free. -/
def freeIndex (n k : Nat) : Nat := Config.freeNat k % n

/-- An unspecified channel. -/
def freeChannel (k : Nat) : Channel :=
  match Config.freeNat k % 3 with
  | 0 => .g
  | 1 => .r
  | _ => .b

/-- The transient serializer fields at the values number `k` and on: "None of it survives the end of `TX.FRAME`" (R43,
R47, U14). Log 7. -/
def DriverState.forget (n k : Nat) (d : DriverState) : DriverState :=
  { d with
    txPixel := freeIndex n k
    txChan := freeChannel (k + 1)
    txBit := BitVec.ofNat 3 (Config.freeNat (k + 2))
    sr := BitVec.ofNat 8 (Config.freeNat (k + 3))
    srLeft := BitVec.ofNat 3 (Config.freeNat (k + 4)) }

/-- A frame has ended: the transient serializer fields hold no known value (R43). Log 7. -/
def State.endFrame (s : State) : State :=
  { s with drv := s.drv.forget s.cfg.n s.fresh, fresh := s.fresh + 5 }

/-- An operation has returned a value (log 13). -/
def State.returns (r : OpResult) (s : State) : State := { s with out := r }

end Sys2Proof.Machine
end

