-- ==== Sys2Proof/Machine/Flags.lean ====
section
/-!
DEFINITION. The block has no arithmetic condition codes (10_state.md R26). What stands in their place: the accumulator's
wrap and parity (41_quadrature_decoder.md R153, 42_effect_engine.md R190), the button's change test (R155), the
SingleHighlight skip test (R192).
-/

namespace Sys2Proof.Machine

/-- `wrap_W_ACC(x)`: two's complement on `w` bits (R153, R190). -/
def wrapAcc (w : Nat) (x : Int) : Int := Int.bmod x (2 ^ w)

/-- "Evenness is tested on bit 0, which is right for negative values too" (R153). -/
def accEven (a : Int) : Bool := a % 2 == 0

/-- The event of a counted step: on an even accumulator the sign of the step just taken, else none (R153, D21, D22). -/
def rotEventOf (d : Dir) : Bool → RotEvent
  | true => (match d with | .plus => .up | .minus => .down)
  | false => .none

/-- The event a change of the button gives: pressed is `down`, released is `up` (R155). -/
def edgeEvent : Bool → BtnEvent
  | true => .down
  | false => .up

/-- "`highlightedIndex` is unchanged since the previous render" (R192). -/
def State.unchangedSinceRender (s : State) : Bool :=
  s.eng.lastRenderedValid && s.eng.lastRenderedIndex == s.eng.highlightedIndex

end Sys2Proof.Machine
end

