-- ==== Sys2Proof/Machine/Engine.lean ====
section
/-!
DEFINITION. EffectEngine (42_effect_engine.md): `HUE.INIT`, `HSV2RGB`, `FADE`, the four render functions and `RENDER`.
-/

namespace Sys2Proof.Machine

/-- The decay of one value (R185): above the floor, one step down, clamped at the floor. The difference is taken only
where it is positive. -/
def fadeValue (c : Cfg) (v : Byte) : Byte :=
  if c.vFloor < v then
    if c.vDecay < v - c.vFloor then v - c.vDecay else c.vFloor
  else v

/-- The decay over all N pixels, lane by lane (R185, R191); `H` and `S` are never written. -/
def decayAll (s : State) : State :=
  s.setFrameHSV (s.eng.frameHSV.map fun x => { x with v := fadeValue s.cfg x.v })

/-- `FADE` (R185): the decay, then `x[eng.highlightedIndex].V <- V_BRIGHT`. -/
def fade (s : State) : State := (decayAll s).writeV s.eng.highlightedIndex s.cfg.vBright

/-- `RENDER.SH` (R186). -/
def renderSh (s : State) : List Pixel :=
  (List.range s.cfg.n).map fun i => if i = s.eng.highlightedIndex then s.cfg.shOn else s.cfg.shOff

/-- `RENDER.PF` (R187). -/
def renderPf (s : State) : List Pixel := (List.range s.cfg.n).map (paletteAt s.cfg)

/-- `RENDER.FH` (R188). -/
def renderFh (s : State) : List Pixel := (List.range s.cfg.n).map fun i => s.cfg.toPixel (s.readCell i)

/-- `RENDER.SEL` (R189): one lane broadcast to all (R191). -/
def renderSel (s : State) : List Pixel :=
  List.replicate s.cfg.n (s.cfg.toPixel (s.readCell s.eng.highlightedIndex))

/-- `RENDER` (R192): the frame to transmit, or `none` for `skip`, and the state after. -/
def render (s : State) : Option (List Pixel) × State :=
  match s.eng.activeMode with
  | .singleHighlight =>
    if s.unchangedSinceRender then (none, s) else (some (renderSh s), s.noteRendered)
  | .paletteFrame => (some (renderPf s), s.noteRendered)
  | .fadingHighlight => (some (renderFh (fade s)), (fade s).noteRendered)
  | .selectedHighlightOnly => (some (renderSel s), s.noteRendered)

/-- What `RENDER` returns: a frame or `skip`. -/
def renderResult : Option (List Pixel) → OpResult
  | some f => .frame f
  | none => .skip

/-- `HUE.INIT` (R180), a pure function. Past the ring its rule states no hue: a free value (log 37). -/
def execHueInit (i : Nat) (s : State) : Host.Outcome State Fault Refusal := .next (s.returns (.hue (s.cfg.hueAt i)))

/-- `HSV2RGB` (R182), a pure function. Above `HUE_MAX` the result is a free value (R101, log 4). -/
def execHsv2rgb (x : PixelHSV) (s : State) : Host.Outcome State Fault Refusal :=
  .next (s.returns (.pixel (s.cfg.toPixel x)))

/-- `FADE` (R185). -/
def execFade (s : State) : Host.Outcome State Fault Refusal := .next ((fade s).returns .nothing)

/-- `RENDER.SH` (R186), a pure function. -/
def execRenderSh (s : State) : Host.Outcome State Fault Refusal := .next (s.returns (.frame (renderSh s)))

/-- `RENDER.PF` (R187), a pure function. -/
def execRenderPf (s : State) : Host.Outcome State Fault Refusal := .next (s.returns (.frame (renderPf s)))

/-- `RENDER.FH` (R188), a pure function: it runs no `FADE`, `RENDER` does. -/
def execRenderFh (s : State) : Host.Outcome State Fault Refusal := .next (s.returns (.frame (renderFh s)))

/-- `RENDER.SEL` (R189), a pure function. -/
def execRenderSel (s : State) : Host.Outcome State Fault Refusal := .next (s.returns (.frame (renderSel s)))

/-- `RENDER` (R192). -/
def execRender (s : State) : Host.Outcome State Fault Refusal :=
  .next ((render s).2.returns (renderResult (render s).1))

end Sys2Proof.Machine
end

