-- ==== Sys2Proof/Machine/InputDispatcher.lean ====
section
/-!
DEFINITION. InputDispatcher (43_input_dispatcher.md): `EV.ROT_UP`, `EV.ROT_DOWN`, `EV.BTN_DOWN`, `EV.BTN_UP`,
`MODE.CONFIRM`, `MODE.DEFAULT`, and the routing of the two events of a tick. It "holds no state of its own" (R226).
-/

namespace Sys2Proof.Machine

/-- `EV.ROT_UP` (R220). -/
def evRotUp (s : State) : State := s.setHighlighted (wrapinc s.cfg.n s.eng.highlightedIndex)

/-- `EV.ROT_DOWN` (R221). -/
def evRotDown (s : State) : State := s.setHighlighted (wrapdec s.cfg.n s.eng.highlightedIndex)

/-- `MODE.CONFIRM` (R224). -/
def modeConfirm (s : State) : State := s.setMode .selectedHighlightOnly

/-- `MODE.DEFAULT` (R225). -/
def modeDefault (s : State) : State := s.setMode .fadingHighlight

/-- `EV.BTN_DOWN` (R222). -/
def evBtnDown (s : State) : State := modeConfirm s

/-- `EV.BTN_UP` (R223). -/
def evBtnUp (s : State) : State := modeDefault s

/-- The rotate event of a tick, if any (R235). -/
def routeRot : RotEvent → State → State
  | .none, s => s
  | .up, s => evRotUp s
  | .down, s => evRotDown s

/-- The button event of a tick, if any (R235). -/
def routeBtn : BtnEvent → State → State
  | .none, s => s
  | .down, s => evBtnDown s
  | .up, s => evBtnUp s

/-- Both events of one tick, the rotate event first (R226, R236). -/
def route (r : RotEvent) (b : BtnEvent) (s : State) : State := routeBtn b (routeRot r s)

/-- `EV.ROT_UP` (R220). -/
def execEvRotUp (s : State) : Host.Outcome State Fault Refusal := .next ((evRotUp s).returns .nothing)

/-- `EV.ROT_DOWN` (R221). -/
def execEvRotDown (s : State) : Host.Outcome State Fault Refusal := .next ((evRotDown s).returns .nothing)

/-- `EV.BTN_DOWN` (R222). -/
def execEvBtnDown (s : State) : Host.Outcome State Fault Refusal := .next ((evBtnDown s).returns .nothing)

/-- `EV.BTN_UP` (R223). -/
def execEvBtnUp (s : State) : Host.Outcome State Fault Refusal := .next ((evBtnUp s).returns .nothing)

/-- `MODE.CONFIRM` (R224). -/
def execModeConfirm (s : State) : Host.Outcome State Fault Refusal := .next ((modeConfirm s).returns .nothing)

/-- `MODE.DEFAULT` (R225). -/
def execModeDefault (s : State) : Host.Outcome State Fault Refusal := .next ((modeDefault s).returns .nothing)

end Sys2Proof.Machine
end

