-- ==== Sys2Proof/Machine/Quadrature.lean ====
section
/-!
DEFINITION. QuadratureDecoder (41_quadrature_decoder.md): `QDEC.SAMPLE`, `QDEC.STEP`, the sixteen transition codes of
R94, `QDEC.GATE`, `BTN.SAMPLE`.
-/

namespace Sys2Proof.Machine

/-- `QDEC.STEP(was, is)`, the transition table (R94, R152). -/
def qdecStep (was is : Sample) : Step :=
  match was.toNat, is.toNat with
  | 3, 2 => .minus
  | 1, 3 => .minus
  | 3, 1 => .plus
  | 2, 3 => .plus
  | _, _ => .zero

/-- `QDEC.GATE(s)`: accumulate, and emit when the accumulator has become even (R153). -/
def qdecGate (d : Dir) (s : State) : RotEvent × State :=
  let acc := wrapAcc s.cfg.wAcc (s.enc.acc + d.toInt)
  (rotEventOf d (accEven acc), s.setAcc acc)

/-- "if s != 0: evRot <- QDEC.GATE(s)" (R150). -/
def gateStep : Step → State → RotEvent × State
  | .minus, s => qdecGate .minus s
  | .plus, s => qdecGate .plus s
  | .zero, s => (.none, s)

/-- The body of `QDEC.SAMPLE` for a transition `(was, is)`: `enc.is` is written always, a differing pair is stepped and
absorbed into `enc.was` (R150). The transition code carries its own `was` (R93, log 14). -/
def absorb (was is : Sample) (s : State) : RotEvent × State :=
  if is = was then (.none, s.setIs is)
  else
    let r := gateStep (qdecStep was is) (s.setIs is)
    (r.1, r.2.setWas is)

/-- `QDEC.SAMPLE` (R150). -/
def qdecSample (s : State) : RotEvent × State := absorb s.enc.was s.readPins.sample s

/-- `BTN.SAMPLE` (R155). -/
def btnSample (s : State) : BtnEvent × State :=
  let now := s.readPins.pressed
  if now = s.enc.buttonLast then (.none, s.setButtonNow now)
  else (edgeEvent now, (s.setButtonNow now).setButtonLast now)

/-- An operation that returns `evRot`. -/
def returnsRot (r : RotEvent × State) : Host.Outcome State Fault Refusal := .next (r.2.returns (.rot r.1))

/-- `QDEC.SAMPLE` (R150). -/
def execQdecSample (s : State) : Host.Outcome State Fault Refusal := returnsRot (qdecSample s)

/-- `QDEC.STEP` (R152), a pure function. Equal samples select no step at all (R94: "none"; log 29). -/
def execQdecStep (was is : Sample) (s : State) : Host.Outcome State Fault Refusal :=
  .next (s.returns (.step (if was = is then none else some (qdecStep was is))))

/-- `QDEC.GATE` (R153). -/
def execQdecGate (d : Dir) (s : State) : Host.Outcome State Fault Refusal := returnsRot (qdecGate d s)

/-- `BTN.SAMPLE` (R155). -/
def execBtnSample (s : State) : Host.Outcome State Fault Refusal :=
  .next ((btnSample s).2.returns (.btn (btnSample s).1))

/-- Code 0000: was = is = 0, no change (R94, R150). -/
def execQtNop00 (s : State) : Host.Outcome State Fault Refusal := returnsRot (absorb 0 0 s)

/-- Code 0001: 0 to 1, ignored (R94). -/
def execQdecStep01 (s : State) : Host.Outcome State Fault Refusal := returnsRot (absorb 0 1 s)

/-- Code 0010: 0 to 2, ignored (R94). -/
def execQdecStep02 (s : State) : Host.Outcome State Fault Refusal := returnsRot (absorb 0 2 s)

/-- Code 0011: 0 to 3, ignored, two bits change (R94). -/
def execQdecStep03 (s : State) : Host.Outcome State Fault Refusal := returnsRot (absorb 0 3 s)

/-- Code 0100: 1 to 0, ignored (R94). -/
def execQdecStep10 (s : State) : Host.Outcome State Fault Refusal := returnsRot (absorb 1 0 s)

/-- Code 0101: was = is = 1, no change (R94, R150). -/
def execQtNop11 (s : State) : Host.Outcome State Fault Refusal := returnsRot (absorb 1 1 s)

/-- Code 0110: 1 to 2, ignored, two bits change (R94). -/
def execQdecStep12 (s : State) : Host.Outcome State Fault Refusal := returnsRot (absorb 1 2 s)

/-- Code 0111: 1 to 3, counted, step −1 (R94). -/
def execQdecStep13 (s : State) : Host.Outcome State Fault Refusal := returnsRot (absorb 1 3 s)

/-- Code 1000: 2 to 0, ignored (R94). -/
def execQdecStep20 (s : State) : Host.Outcome State Fault Refusal := returnsRot (absorb 2 0 s)

/-- Code 1001: 2 to 1, ignored, two bits change (R94). -/
def execQdecStep21 (s : State) : Host.Outcome State Fault Refusal := returnsRot (absorb 2 1 s)

/-- Code 1010: was = is = 2, no change (R94, R150). -/
def execQtNop22 (s : State) : Host.Outcome State Fault Refusal := returnsRot (absorb 2 2 s)

/-- Code 1011: 2 to 3, counted, step +1 (R94). -/
def execQdecStep23 (s : State) : Host.Outcome State Fault Refusal := returnsRot (absorb 2 3 s)

/-- Code 1100: 3 to 0, ignored, two bits change (R94). -/
def execQdecStep30 (s : State) : Host.Outcome State Fault Refusal := returnsRot (absorb 3 0 s)

/-- Code 1101: 3 to 1, counted, step +1 (R94). -/
def execQdecStep31 (s : State) : Host.Outcome State Fault Refusal := returnsRot (absorb 3 1 s)

/-- Code 1110: 3 to 2, counted, step −1 (R94). -/
def execQdecStep32 (s : State) : Host.Outcome State Fault Refusal := returnsRot (absorb 3 2 s)

/-- Code 1111: was = is = 3, no change (R94, R150). -/
def execQtNop33 (s : State) : Host.Outcome State Fault Refusal := returnsRot (absorb 3 3 s)

end Sys2Proof.Machine
end

