-- ==== Sys2Proof/Machine/Serializer.lean ====
section
/-!
DEFINITION. PixelBitstreamDriver (40_pixel_serializer.md): the operations `INIT`, `BLANK`, `TX.BIT`, `TX.CHAN`,
`TX.PIXEL`, `TX.FRAME`, `SHOW`, `IRQ.MASK`, `IRQ.UNMASK`.
-/

namespace Sys2Proof.Machine

/-- The pattern byte of a logical bit (R95). -/
def patternOf (c : Cfg) (b : Bool) : Byte := if b then c.patOne else c.patZero

/-- `TX.BIT(b)` (R123). The serializer's transient fields it moves are R43's (R36, log 15). -/
def txBit (b : Bool) (s : State) : State := s.emitByte (patternOf s.cfg b)

/-- `TX.CHAN(c)`: `for k in 7, 6, 5, 4, 3, 2, 1, 0: TX.BIT(c[k])` (R124), at bit position `k` (R28). -/
def txChan (c : Byte) (s : State) : State :=
  [7, 6, 5, 4, 3, 2, 1, 0].foldl (fun t k => txBit (c.getLsbD k) (t.setTxBit k)) s

/-- `TX.PIXEL((R, G, B))`: `TX.CHAN(G); TX.CHAN(R); TX.CHAN(B)` (R125), at the channel positions of R28. -/
def txPixel (p : Pixel) (s : State) : State :=
  txChan p.b ((txChan p.r ((txChan p.g (s.setTxChan .g)).setTxChan .r)).setTxChan .b)

/-- `for i in i .. : TX.PIXEL(frame[i])`, with `drv.txPixel = i` (R126). -/
def txPixels : Nat → List Pixel → State → State
  | _, [], s => s
  | i, p :: rest, s => txPixels (i + 1) rest (txPixel p (s.setTxPixel i))

/-- `IRQ.MASK`, the pixels, `IRQ.UNMASK`: the bracket of a frame (R126, R127) and of the blank (R122). -/
def txBracket (f : List Pixel) (s : State) : State :=
  (txPixels 0 f (s.setIrqMask true)).setIrqMask false

/-- `SHOW` (R128). It begins when the last byte is off the line: DESIGN CHOICE, log 35. -/
def showGap (s : State) : State := s.emitGap s.cfg.gapShowUs

/-- `TX.FRAME(frame)` (R126). -/
def txFrame (f : List Pixel) (s : State) : State := (showGap (txBracket f s)).endFrame

/-- `BLANK` (R122): the gap outside the bracket, N black pixels, the latching gap. -/
def blank (s : State) : State :=
  ((txBracket (List.replicate s.cfg.n Pixel.black) (s.emitGap s.cfg.gapPreUs)).emitGap s.cfg.gapBlankUs).endFrame

/-- `INIT` (R121): the configuration steps have no model state, then `BLANK`; the first `TICK` may follow (R281). -/
def initialise (s : State) : State := { blank s with initDone := true }

/-- `TX.BIT(0)` (R123). -/
def execTxBit0 (s : State) : Host.Outcome State Fault Refusal := .next ((txBit false s).returns .nothing)

/-- `TX.BIT(1)` (R123). -/
def execTxBit1 (s : State) : Host.Outcome State Fault Refusal := .next ((txBit true s).returns .nothing)

/-- `TX.CHAN` (R124). -/
def execTxChan (c : Byte) (s : State) : Host.Outcome State Fault Refusal := .next ((txChan c s).returns .nothing)

/-- `TX.PIXEL` (R125). -/
def execTxPixel (p : Pixel) (s : State) : Host.Outcome State Fault Refusal := .next ((txPixel p s).returns .nothing)

/-- `TX.FRAME` (R126). -/
def execTxFrame (f : List Pixel) (s : State) : Host.Outcome State Fault Refusal :=
  .next ((txFrame f s).returns .nothing)

/-- `SHOW` (R128). -/
def execShowGap (s : State) : Host.Outcome State Fault Refusal := .next ((showGap s).returns .nothing)

/-- `IRQ.MASK` (R129). -/
def execIrqMask (s : State) : Host.Outcome State Fault Refusal := .next ((s.setIrqMask true).returns .nothing)

/-- `IRQ.UNMASK` (R130). -/
def execIrqUnmask (s : State) : Host.Outcome State Fault Refusal := .next ((s.setIrqMask false).returns .nothing)

/-- `BLANK` (R122). -/
def execBlank (s : State) : Host.Outcome State Fault Refusal := .next ((blank s).returns .nothing)

/-- `INIT` (R121). -/
def execInit (s : State) : Host.Outcome State Fault Refusal := .next ((initialise s).returns .nothing)

end Sys2Proof.Machine
end

