-- ==== Sys2Proof/Machine/Sequencer.lean ====
section
/-!
DEFINITION. `TICK`, one pass of the control loop (44_tick_sequencer.md R235), and `RESET`, power-on
(70_reset_and_hazards.md R280).
-/

namespace Sys2Proof.Machine

/-- Phase SAMPLE: rotation, then button (R157, R235). -/
def samplePhase (s : State) : RotEvent × BtnEvent × State :=
  let q := qdecSample s
  let b := btnSample q.2
  (q.1, b.1, b.2)

/-- Phases SAMPLE, DISPATCH, UPDATE (R235). -/
def sampleAndRoute (s : State) : State :=
  let r := samplePhase s
  route r.1 r.2.1 r.2.2

/-- Phases TRANSMIT and SHOW: "if r is a Frame: TX.FRAME(r)" (R235). -/
def transmit : Option (List Pixel) → State → State
  | some f, s => txFrame f s
  | none, s => s

/-- `TICK` with the pin word the environment presents (R235). -/
def tick (pins : Pins) (s : State) : State :=
  let r := render (sampleAndRoute (s.setPins pins))
  transmit r.1 r.2

/-- `RESET`, power-on (R280). What the rule leaves unspecified is drawn free: `lastRenderedIndex` below N, `drv.irqMask`,
the transient fields, the port's level (log 6). The lines are the environment's and stay. -/
def powerOn (s : State) : State :=
  { s with
    enc := EncoderState.reset
    eng := EngineState.reset s.cfg (freeIndex s.cfg.n s.fresh)
    drv := { s.drv.forget s.cfg.n (s.fresh + 1) with
      irqMask := Config.freeBit s.fresh, pixOut := Config.freeBit (s.fresh + 1) }
    wire := []
    initDone := false
    fresh := s.fresh + 6 }

/-- `TICK` (R235). -/
def execTick (pins : Pins) (s : State) : Host.Outcome State Fault Refusal := .next ((tick pins s).returns .nothing)

/-- `RESET` (R280). -/
def execReset (s : State) : Host.Outcome State Fault Refusal := .next ((powerOn s).returns .nothing)

end Sys2Proof.Machine
end

