-- ==== Sys2Proof/Machine/Dispatch.lean ====
section
/-! DEFINITION. One arm per operation: which meaning it has (00_scope.md R4). -/

namespace Sys2Proof.Machine

def exec (i : Instr) (s : State) : Host.Outcome State Fault Refusal :=
  match i with
  -- format QT, the transition codes (30_encoding.md R94)
  | .qtNop00 => Sys2Proof.Machine.execQtNop00 s
  | .qdecStep01 => Sys2Proof.Machine.execQdecStep01 s
  | .qdecStep02 => Sys2Proof.Machine.execQdecStep02 s
  | .qdecStep03 => Sys2Proof.Machine.execQdecStep03 s
  | .qdecStep10 => Sys2Proof.Machine.execQdecStep10 s
  | .qtNop11 => Sys2Proof.Machine.execQtNop11 s
  | .qdecStep12 => Sys2Proof.Machine.execQdecStep12 s
  | .qdecStep13 => Sys2Proof.Machine.execQdecStep13 s
  | .qdecStep20 => Sys2Proof.Machine.execQdecStep20 s
  | .qdecStep21 => Sys2Proof.Machine.execQdecStep21 s
  | .qtNop22 => Sys2Proof.Machine.execQtNop22 s
  | .qdecStep23 => Sys2Proof.Machine.execQdecStep23 s
  | .qdecStep30 => Sys2Proof.Machine.execQdecStep30 s
  | .qdecStep31 => Sys2Proof.Machine.execQdecStep31 s
  | .qdecStep32 => Sys2Proof.Machine.execQdecStep32 s
  | .qtNop33 => Sys2Proof.Machine.execQtNop33 s
  -- format WB (R95), format MT (R98), format EV (R99), format IN (R91)
  | .txBit0 => Sys2Proof.Machine.execTxBit0 s
  | .txBit1 => Sys2Proof.Machine.execTxBit1 s
  | .renderSh => Sys2Proof.Machine.execRenderSh s
  | .renderPf => Sys2Proof.Machine.execRenderPf s
  | .renderFh => Sys2Proof.Machine.execRenderFh s
  | .renderSel => Sys2Proof.Machine.execRenderSel s
  | .evRotUp => Sys2Proof.Machine.execEvRotUp s
  | .evRotDown => Sys2Proof.Machine.execEvRotDown s
  | .evBtnDown => Sys2Proof.Machine.execEvBtnDown s
  | .evBtnUp => Sys2Proof.Machine.execEvBtnUp s
  | .tick pins => Sys2Proof.Machine.execTick pins s
  -- the operations selected by name
  | .init => Sys2Proof.Machine.execInit s
  | .blank => Sys2Proof.Machine.execBlank s
  | .txChan c => Sys2Proof.Machine.execTxChan c s
  | .txPixel p => Sys2Proof.Machine.execTxPixel p s
  | .txFrame f => Sys2Proof.Machine.execTxFrame f s
  | .showGap => Sys2Proof.Machine.execShowGap s
  | .irqMask => Sys2Proof.Machine.execIrqMask s
  | .irqUnmask => Sys2Proof.Machine.execIrqUnmask s
  | .qdecSample => Sys2Proof.Machine.execQdecSample s
  | .qdecStep was is => Sys2Proof.Machine.execQdecStep was is s
  | .qdecGate d => Sys2Proof.Machine.execQdecGate d s
  | .btnSample => Sys2Proof.Machine.execBtnSample s
  | .hueInit k => Sys2Proof.Machine.execHueInit k s
  | .hsv2rgb x => Sys2Proof.Machine.execHsv2rgb x s
  | .fade => Sys2Proof.Machine.execFade s
  | .render => Sys2Proof.Machine.execRender s
  | .modeConfirm => Sys2Proof.Machine.execModeConfirm s
  | .modeDefault => Sys2Proof.Machine.execModeDefault s
  | .reset => Sys2Proof.Machine.execReset s

end Sys2Proof.Machine
end

