-- ==== Sys2Proof/Machine/Step.lean ====
section
/-!
DEFINITION. One step of the machine. An operation placed in the queue is decoded, checked and run; with nothing placed,
the block lives as R239 says: `INIT` once after reset, then `TICK` after `TICK`, the lines at whatever levels the
environment presents (logs 9, 11, 23).
-/

namespace Sys2Proof.Machine

/-- A decoded operation runs. The one operand that "cannot be passed", a frame of another length than N (R126), reaches
no operation (log 31). -/
def execChecked (i : Instr) (s : State) : Host.Outcome State Fault Refusal :=
  if i.wellFormed s.cfg then exec i s else .refused (.cannotBePassed i)

/-- A queued word is decoded and run. -/
def runWord (w : OpWord) (s : State) : Host.Outcome State Fault Refusal :=
  match decode w with
  | .ok i => execChecked i s
  | .error e => .refused (.undecodable e)

/-- The block's own next operation in the life `RESET`, `INIT`, `TICK`, `TICK`, ... (R239); the pin word is a free value
(R63, log 11). -/
def runLoop (s : State) : Host.Outcome State Fault Refusal :=
  if s.initDone then exec (.tick (pinsOfWord (Config.drawPinWord s.fresh))) { s with fresh := s.fresh + 1 }
  else exec .init s

/-- One step. -/
def step (s : State) : Host.Outcome State Fault Refusal :=
  match s.queue with
  | w :: rest => runWord w { s with queue := rest }
  | [] => runLoop s

/-- The state whose next step runs the operation an opcode-table word stands for (logs 9, 10). -/
def State.withFetchWord (s : State) (nbits w : Nat) : State := { s with queue := tableWord nbits w :: s.queue }

end Sys2Proof.Machine
end

