-- ==== Sys2Proof/Machine/Phases.lean ====
section
/-!
DEFINITION. The inside of a `TICK` in small steps: `seq.phase` (10_state.md R27), the transient signals `evRot` and
`evBtn` (R26), and the serializer moving one logical bit at a time through `(drv.txPixel, drv.txChan, drv.txBit)` in
lexicographic order (R28). 44_tick_sequencer.md R237 allows a model to expose these; no claim about `enc` or `eng` depends
on them. The machine's own step is the atomic `TICK` of Sequencer.lean (log 26).
-/

namespace Sys2Proof.Machine

/-- `seq.phase` (R27), with TRANSMIT at its entry and inside the byte loop told apart. -/
inductive Phase where
  | idle
  | sample
  | dispatch
  | update
  | render
  | transmit
  | sending
  | showing
deriving DecidableEq, Repr

/-- A tick in progress. -/
structure MidTick where
  phase : Phase
  st : State
  evRot : RotEvent
  evBtn : BtnEvent
  frame : Option (List Pixel)
deriving DecidableEq, Repr

/-- Between ticks: phase IDLE, no event, no frame. -/
def MidTick.resting (s : State) : MidTick := ⟨.idle, s, .none, .none, none⟩

/-- The logical bit at a serializer position: bit `txBit` of channel `txChan` of pixel `txPixel` (R28). -/
def bitAt (f : List Pixel) (d : DriverState) : Bool :=
  ((f.getD d.txPixel Pixel.black).channel d.txChan).getLsbD d.txBit.toNat

/-- The position after this one, in lexicographic order: bits 7 down to 0, channels G, R, B, pixels ascending; none after
the last of `n` pixels (R28). -/
def DriverState.advance (n : Nat) (d : DriverState) : Option DriverState :=
  if d.txBit ≠ 0 then some { d with txBit := d.txBit - 1 }
  else
    match d.txChan with
    | .g => some { d with txChan := .r, txBit := 7 }
    | .r => some { d with txChan := .b, txBit := 7 }
    | .b => if d.txPixel + 1 < n then some { d with txPixel := d.txPixel + 1, txChan := .g, txBit := 7 } else none

/-- One small step. The environment's levels stand in `st.pins`. -/
def MidTick.next (m : MidTick) : MidTick :=
  match m.phase with
  | .idle => { m with phase := .sample }
  | .sample =>
    let r := samplePhase m.st
    { m with phase := .dispatch, st := r.2.2, evRot := r.1, evBtn := r.2.1 }
  -- the dispatcher hands the events on as they are; the writes are the next phase's ("updates highlighted index / mode")
  | .dispatch => { m with phase := .update }
  | .update => { m with phase := .render, st := route m.evRot m.evBtn m.st }
  | .render =>
    let r := Sys2Proof.Machine.render m.st
    { m with phase := .transmit, st := r.2, frame := r.1 }
  | .transmit =>
    match m.frame with
    | none => { m with phase := .showing }
    | some _ =>
      { m with
        phase := .sending
        st := (((m.st.setIrqMask true).setTxPixel 0).setTxChan .g).setTxBit 7 }
  | .sending =>
    match m.frame with
    | none => { m with phase := .showing }
    | some f =>
      let s := txBit (bitAt f m.st.drv) m.st
      match s.drv.advance f.length with
      | some d => { m with st := { s with drv := d } }
      | none => { m with phase := .showing, st := s.setIrqMask false }
  | .showing =>
    match m.frame with
    | none => MidTick.resting m.st
    | some _ => MidTick.resting (showGap m.st).endFrame

/-- `k` small steps. -/
def MidTick.run : Nat → MidTick → MidTick
  | 0, m => m
  | k + 1, m => MidTick.run k m.next

end Sys2Proof.Machine
end

