-- ==== Sys2Proof/Machine/Stimulus.lean ====
section
/-!
DEFINITION. The stimulus notation (30_encoding.md R105 to R107): lines, pseudo-operations, the last samples a program has
presented, and the expansion of a program into queued operations.
-/

namespace Sys2Proof.Machine

/-- A line of a program: `RESET`, `INIT`, `TICK q=.. btn=..` (R105). -/
inductive Line where
  | reset
  | init
  | tick (q : Sample) (btn : Bool)
deriving DecidableEq, Repr

/-- The operation a line stands for; a `TICK` line's encoding is `IN = {~q[1], ~q[0], ~btn}` (R105). -/
def Line.instr : Line → Instr
  | .reset => .reset
  | .init => .init
  | .tick q btn => .tick (Pins.ofLogical q btn)

/-- The pseudo-operations (R106). -/
inductive Pseudo where
  | idle (n : Nat)
  | detentUp
  | detentDown
  | press
  | release
deriving DecidableEq, Repr

/-- The lines a pseudo-operation expands to, from the last `q` and `btn` (R106). -/
def Pseudo.expand (q : Sample) (btn : Bool) : Pseudo → List Line
  | .idle n => List.replicate n (.tick q btn)
  | .detentUp => [.tick 1 btn, .tick 0 btn, .tick 2 btn, .tick 3 btn]
  | .detentDown => [.tick 2 btn, .tick 0 btn, .tick 1 btn, .tick 3 btn]
  | .press => [.tick q true]
  | .release => [.tick q false]

/-- `<last q>` and `<last btn>` of R106: the samples of the last `TICK` line. Log 36. -/
structure LastSamples where
  q : Sample
  btn : Bool
deriving DecidableEq, Repr

/-- "first use after `INIT`: `q=3 btn=0`" (R106). -/
def LastSamples.start : LastSamples := ⟨3, false⟩

/-- The last samples after one more line: a `TICK` line's own, the start after `INIT` (R106). A `RESET` line presents no
samples and leaves them (log 36). -/
def LastSamples.line (m : LastSamples) : Line → LastSamples
  | .reset => m
  | .init => LastSamples.start
  | .tick q btn => ⟨q, btn⟩

/-- The last samples after several lines. -/
def LastSamples.lines (m : LastSamples) (l : List Line) : LastSamples := l.foldl LastSamples.line m

/-- A line of a program as it is written: a line of R105's table or a pseudo-operation of R106's. -/
inductive SourceLine where
  | line (l : Line)
  | pseudo (p : Pseudo)
deriving DecidableEq, Repr

/-- The lines a written line stands for, the last samples being `m`. -/
def SourceLine.expand (m : LastSamples) : SourceLine → List Line
  | .line l => [l]
  | .pseudo p => p.expand m.q m.btn

/-- The lines of a program whose last samples so far are `m`: each pseudo-operation is expanded with the samples of the
last `TICK` line before it (R106). -/
def expandFrom (m : LastSamples) : List SourceLine → List Line
  | [] => []
  | x :: rest => x.expand m ++ expandFrom (m.lines (x.expand m)) rest

/-- The lines of a program, its pseudo-operations expanded (R106). -/
def expandProgram (p : List SourceLine) : List Line := expandFrom LastSamples.start p

/-- A program placed in the queue: "a sequence of lines executed top to bottom, one operation each" (R105). -/
def State.withProgram (p : List SourceLine) (s : State) : State :=
  { s with queue := (expandProgram p).map fun l => encode l.instr }

end Sys2Proof.Machine
end

