-- ==== Sys2Proof/Machine/Wire.lean ====
section
/-!
DEFINITION. Readings of the output trace: the wire format of a frame (30_encoding.md R96, R97), its inverse `DecodeWire`
(R104), what the ring shows (10_state.md R44), the line levels (R103, R132), the mask bracket (40_pixel_serializer.md
R127). None of it is state, and no operation reads it.
-/

namespace Sys2Proof.Machine

/-- The 24 bytes of one pixel: byte `j` carries bit `23 - j` of the wire word (R96). -/
def pixelBytes (c : Cfg) (p : Pixel) : List Byte :=
  (List.range 24).map fun j => patternOf c (p.wireWord.getLsbD (23 - j))

/-- The bytes of a frame, pixel 0 first (R65, R97). -/
def frameBytes (c : Cfg) (f : List Pixel) : List Byte := f.flatMap (pixelBytes c)

/-- Format `WF` as a trace (R97). -/
def frameSyms (c : Cfg) (f : List Pixel) : List Sym :=
  .mask true :: (frameBytes c f).map .byte ++ [.mask false, .gap c.gapShowUs]

/-- The init blank as a trace (R97, R122). -/
def blankSyms (c : Cfg) : List Sym :=
  .gap c.gapPreUs :: .mask true :: (frameBytes c (List.replicate c.n Pixel.black)).map .byte
    ++ [.mask false, .gap c.gapBlankUs]

/-- The logical bit a byte carries, if it is one of the two patterns (R104). -/
def bitOfByte (c : Cfg) (b : Byte) : Option Bool :=
  if b = c.patOne then some true else if b = c.patZero then some false else none

/-- The logical bits of a byte sequence, if every byte is a pattern (R104). -/
def bitsOfBytes (c : Cfg) : List Byte → Option (List Bool)
  | [] => some []
  | b :: rest => do some ((← bitOfByte c b) :: (← bitsOfBytes c rest))

/-- Eight bits, most significant first, as a byte. -/
def byteOfBits (l : List Bool) : Byte :=
  BitVec.ofNat 8 (l.foldl (fun a b => 2 * a + b.toNat) 0)

/-- "`G = bits 24i .. 24i+7`, `R = bits 24i+8 .. 24i+15`, `B = bits 24i+16 .. 24i+23`" (R104). -/
def pixelOfBits (l : List Bool) : Pixel where
  g := byteOfBits (l.take 8)
  r := byteOfBits ((l.drop 8).take 8)
  b := byteOfBits ((l.drop 16).take 8)

/-- `n` pixels from their bits. -/
def pixelsOfBits : Nat → List Bool → List Pixel
  | 0, _ => []
  | n + 1, l => pixelOfBits (l.take 24) :: pixelsOfBits n (l.drop 24)

/-- `DecodeWire` (R104): `none` is the spec's `invalid`. -/
def decodeWire (c : Cfg) (l : List Byte) : Option (List Pixel) :=
  if l.length ≠ 24 * c.n then none
  else (bitsOfBytes c l).map (pixelsOfBits c.n)

/-- What has been seen of the trace so far: the bytes of the open bracket, the bytes of a closed one not yet latched, and
the colours shown; `none` is the spec's "unspecified until the init blank has latched" (R47). -/
structure RingView where
  collecting : List Byte
  sent : Option (List Byte)
  shown : Option (List Pixel)
deriving DecidableEq, Repr

/-- A symbol reaches the ring. It changes what it shows "only when a frame (or the init blank) has been sent and latched
by its trailing gap" (R44). -/
def RingView.see (c : Cfg) (v : RingView) : Sym → RingView
  | .byte b => { v with collecting := v.collecting ++ [b] }
  | .mask true => { v with collecting := [], sent := none }
  | .mask false => { v with sent := some v.collecting }
  | .gap _ =>
    match v.sent with
    | some l => { v with sent := none, shown := decodeWire c l }
    | none => v

/-- "A model that wants the displayed colours takes them as `DecodeWire` of the last complete frame in the trace" (R44).
It rests on the premise that the platform honours `IRQ_MASK` (R285, log 19). -/
def ringShows (c : Cfg) (wire : List Sym) : Option (List Pixel) :=
  (wire.foldl (RingView.see c) ⟨[], none, none⟩).shown

/-- The levels of `PIX_OUT` a symbol drives, one per bit time: a byte its eight bits, `b[7]` first (R103); a gap and a
mask symbol none, a gap's duration being no number of bit times (R8). -/
def Sym.levels : Sym → List Bool
  | .byte b => msbFirst b
  | .gap _ => []
  | .mask _ => []

/-- The trace read from a mask level on: a byte only while masked, a gap only while not, the mask symbols alternating
(R127). The result is the level after it. -/
def maskAfter : Bool → List Sym → Option Bool
  | m, [] => some m
  | true, .byte _ :: rest => maskAfter true rest
  | true, .mask false :: rest => maskAfter false rest
  | false, .gap _ :: rest => maskAfter false rest
  | false, .mask true :: rest => maskAfter true rest
  | _, _ => none

/-- "in every trace, every `Byte` lies between a `Mask(1)` and the next `Mask(0)`; every `Gap` lies outside such a pair;
`Mask(1)` and `Mask(0)` strictly alternate, starting with `Mask(1)`" (R127), and no bracket is left open. -/
def bracketed (wire : List Sym) : Bool := maskAfter false wire == some false

end Sys2Proof.Machine
end

