-- ==== Sys2Proof/Safety.lean ====
section
/-!
DEFINITION. What a safe run is, in the terms the claims use: the invariants of 10_state.md R46, the trace's bracket (R127)
and a queue that holds nothing but the operations of the block's life (R105, R239).
-/

namespace Sys2Proof.Machine

/-- R46 (1) to (4) and (8), and R24's range of the accumulator: what every operation keeps, in a configuration that meets
R5's constraints. -/
structure State.Shape (s : State) : Prop where
  cfgValid : s.cfg.valid
  indexInRange : s.eng.highlightedIndex < s.cfg.n
  frameLength : s.eng.frameHSV.length = s.cfg.n
  hueSat : ∀ i, i < s.cfg.n → (s.readCell i).h = BitVec.ofNat 16 (s.cfg.hueInit i) ∧ (s.readCell i).s = s.cfg.sat
  valueInRange : ∀ i, i < s.cfg.n → s.cfg.vFloor ≤ (s.readCell i).v ∧ (s.readCell i).v ≤ s.cfg.vBright
  lastInRange : s.eng.lastRenderedValid = true → s.eng.lastRenderedIndex < s.cfg.n
  accLow : -(2 : Int) ^ (s.cfg.wAcc - 1) ≤ s.enc.acc
  accHigh : s.enc.acc < (2 : Int) ^ (s.cfg.wAcc - 1)

/-- R46 (5) to (7) and R127: what holds between the operations of the block's life. (7) holds from `INIT` on (R280). -/
structure State.Settled (s : State) : Prop where
  absorbed : s.enc.is = s.enc.was
  buttonSeen : s.enc.buttonNow = s.enc.buttonLast
  unmasked : s.initDone = true → s.drv.irqMask = false
  traceBracketed : bracketed s.wire = true

/-- An operation of the block's life (R239): the lines of a program (R105). -/
def Instr.ofLife : Instr → Bool
  | .tick _ => true
  | .init => true
  | .reset => true
  | _ => false

/-- Every queued word is an operation of the block's life. -/
def State.QueueOfLife (s : State) : Prop := ∀ w ∈ s.queue, ∃ i, decode w = .ok i ∧ Instr.ofLife i = true

/-- The invariant of the block's life. -/
structure State.Inv (s : State) : Prop where
  shape : s.Shape
  settled : s.Settled
  queueOfLife : s.QueueOfLife

/-- A run of `k` steps that meets no fault and no refusal. -/
def SafeFor (k : Nat) (s : State) : Prop := ∃ t, Host.Core.run Sys2Proof.core k s = .next t

end Sys2Proof.Machine
end

