-- ==== Sys2Proof/Certificates/Slice0/Obligations.lean ====
section
/-!
DEFINITION. The statements about the block, family by family. Each docstring names the rule of spec/ it formalises.
A statement of the form `exec i s = .next { s with … }` says the result, that the operation completes and its frame at
once: every field of the state that is not named stays as it was. `out` is the model's own record of what the operation
returned (log 13).
-/

namespace Sys2Proof.Claims

open Sys2Proof.Machine

/-- `exec` of several operations in turn. -/
def execAll : List Instr → State → Host.Outcome State Fault Refusal
  | [], s => .next s
  | i :: rest, s =>
    match exec i s with
    | .next t => execAll rest t
    | .fault f => .fault f
    | .refused r => .refused r

/-- `a` is the accumulator `old + d` on `w` bits of two's complement: the number of that range that differs from the sum
by a multiple of `2 ^ w` (R153, R190). -/
def WrapsTo (w : Nat) (old : Int) (d : Dir) (a : Int) : Prop :=
  -(2 : Int) ^ (w - 1) ≤ a ∧ a < (2 : Int) ^ (w - 1) ∧ ∃ k : Int, a = old + d.toInt + k * 2 ^ w

/-- The event a counted step gives: on an even accumulator the step's sign, `up` for +1 (R153). -/
def gatedEvent (d : Dir) (a : Int) : RotEvent :=
  if a % 2 = 0 then (match d with | .plus => .up | .minus => .down) else .none

/-- What a counted transition to `q` does (R150, R153): the accumulator takes the step, both samples are `q`, nothing else
of the block changes. -/
def Counted (d : Dir) (q : Sample) (s : State) (r : Host.Outcome State Fault Refusal) : Prop :=
  ∃ a, WrapsTo s.cfg.wAcc s.enc.acc d a ∧
    r = .next { s with enc := { s.enc with is := q, was := q, acc := a }, out := .rot (gatedEvent d a) }

/-- The logical bits of a pixel on the wire, first sent first: bit 23 of `{G, R, B}` down to bit 0 (R96). -/
def wireBits (p : Pixel) : List Bool := (List.range 24).map fun j => (p.g ++ p.r ++ p.b : BitVec 24).getLsbD (23 - j)

/-- The `Byte` symbols of logical bits (R95). -/
def bitSyms (c : Cfg) (l : List Bool) : List Sym := l.map fun b => .byte (if b then c.patOne else c.patZero)

/-- The pins that present the logical sample `q` with the button as given. -/
def present (q : Sample) (btn : Bool) (s : State) : State := { s with pins := Pins.ofLogical q btn }

/-- The transition codes (R94). -/
def isCode : Instr → Bool
  | .qtNop00 | .qdecStep01 | .qdecStep02 | .qdecStep03 | .qdecStep10 | .qtNop11 | .qdecStep12 | .qdecStep13
  | .qdecStep20 | .qdecStep21 | .qtNop22 | .qdecStep23 | .qdecStep30 | .qdecStep31 | .qdecStep32 | .qtNop33 => true
  | _ => false

/-- `TX.FRAME`, `INIT`'s blank and their parts: the operations that send bytes (R36, R121 to R126). -/
def sendsBytes : Instr → Bool
  | .txBit0 | .txBit1 | .txChan _ | .txPixel _ | .txFrame _ | .blank | .init => true
  | _ => false

/-- Written after the program `p` and the line `l`, the pseudo-operations `x` stand for the lines `ls`. -/
def ExpandsTo (p : List SourceLine) (l : Line) (x : List Pseudo) (ls : List Line) : Prop :=
  expandProgram (p ++ .line l :: x.map .pseudo) = expandProgram p ++ l :: ls

/-- `TICK` lines of the samples `qs` with one button value. -/
def tickLines (b : Bool) (qs : List Sample) : List Line := qs.map fun q => .tick q b

/-- `TICK` and `RESET`, which call or replace every writer of R36. -/
def isWhole (i : Instr) : Prop := (∃ p, i = .tick p) ∨ i = .reset

end Sys2Proof.Claims

open Sys2Proof Sys2Proof.Machine Sys2Proof.Claims

/-! ### The step and the encodings -/

/-- A step runs the operation the queue's head decodes to, and moves past it; the opcode-table word placed by
`withFetchWord` is such a head. The queue is the model's own (log 9). -/
def Obligations.StepRunsTheDecodedOperation : Prop :=
  (∀ (s : State) (w : OpWord) (rest : List OpWord) (i : Instr),
    s.queue = w :: rest → decode w = .ok i → i.wellFormed s.cfg = true → step s = exec i { s with queue := rest }) ∧
  (∀ (s : State) (nbits w : Nat) (i : Instr),
    decodeTableWord nbits w = some i → i.wellFormed s.cfg = true → step (s.withFetchWord nbits w) = exec i s)

/-- A step refuses a queued word that is no operation, and a `TX.FRAME` whose frame has not N pixels: it "cannot be passed"
(R126). It refuses nothing else and never faults. The block itself presents neither (log 31). -/
def Obligations.StepRefusesWhatIsNoOperation : Prop :=
  (∀ (s : State) (w : OpWord) (rest : List OpWord) (e : DecodeError),
    s.queue = w :: rest → decode w = .error e → step s = .refused (.undecodable e)) ∧
  (∀ (s : State) (w : OpWord) (rest : List OpWord) (f : List Pixel),
    s.queue = w :: rest → decode w = .ok (.txFrame f) → f.length ≠ s.cfg.n →
      step s = .refused (.cannotBePassed (.txFrame f))) ∧
  (∀ s : State,
    (∀ (w : OpWord) (rest : List OpWord), s.queue = w :: rest →
      ∃ i, decode w = .ok i ∧ ∀ f, i = .txFrame f → f.length = s.cfg.n) →
    ∃ t, step s = .next t)

/-- With nothing placed from outside the block lives on: `INIT` once, then `TICK`s with whatever the lines present, without
end (R239, R240). The pin words are free values (log 11). -/
def Obligations.UnattendedStepsAreInitThenTicks : Prop :=
  (∀ s : State, s.queue = [] → s.initDone = false →
    ∃ t, exec .init s = .next t ∧ step s = .next t ∧ t.initDone = true ∧ t.queue = []) ∧
  (∀ s : State, s.queue = [] → s.initDone = true →
    ∃ p t, exec (.tick p) { s with fresh := s.fresh + 1 } = .next t ∧ step s = .next t ∧ t.initDone = true ∧
      t.queue = [])

/-- Decoding what the encoder wrote gives the operation back, every operand at every value (R91 to R99; the operand lists
of named operations are the model's, log 34). -/
def Obligations.DecodeInvertsEncode : Prop := ∀ i : Instr, decode (encode i) = .ok i

/-- Each word means one operation and each operation has one word: what decodes is what the encoder writes. The codes are
R91 to R99's; the words of the named operations are the model's own notation, for which the spec says "Encoding: none"
(log 34). -/
def Obligations.EncodeInvertsDecode : Prop := ∀ (w : OpWord) (i : Instr), decode w = .ok i → encode i = w

/-- Words written out from the spec's tables decode to the operations they stand for: `TICK q=3 btn=0` is `0b001` (R105),
codes of R94, R95, R98, R99. The last two are in no table: they are the model's notation for a named operation with its
operands (log 34). -/
def Obligations.SpecWordsDecode : Prop :=
  decode (.coded .IN 0b001) = .ok (.tick ⟨false, false, true⟩) ∧
  decode (.coded .IN 0b100) = .ok (.tick ⟨true, false, false⟩) ∧
  decode (.coded .QT 0b1101) = .ok .qdecStep31 ∧ decode (.coded .QT 0b0111) = .ok .qdecStep13 ∧
  decode (.coded .QT 0b1010) = .ok .qtNop22 ∧ decode (.coded .WB 1) = .ok .txBit1 ∧
  decode (.coded .MT 0b10) = .ok .renderFh ∧ decode (.coded .EV 0b01) = .ok .evRotDown ∧
  decode (.named .QDEC_GATE [-1]) = .ok (.qdecGate .minus) ∧
  decode (.named .TX_PIXEL [255, 63, 0]) = .ok (.txPixel ⟨255, 63, 0⟩)

/-- A stored record packs into its 32 bits and back without loss, `H` on top (R100). -/
def Obligations.StoredRecordPacks : Prop :=
  (∀ x : PixelHSV, PixelHSV.unpack x.pack = x ∧
    x.pack.toNat = x.h.toNat * 65536 + x.s.toNat * 256 + x.v.toNat) ∧
  (∀ w : BitVec 32, (PixelHSV.unpack w).pack = w)

/-! ### QuadratureDecoder -/

/-- Sampling is the transition code `{was, is}`: `QDEC.SAMPLE` does what the operation of the code `enc.was` and the lines
make does (R93, R94, R150). That the codes are operations to be run by themselves is log 14's reading of the table. -/
def Obligations.SamplingIsItsTransitionCode : Prop :=
  ∀ s : State, ∃ i : Instr, decode (.coded .QT (transitionCode s.enc.was s.pins.sample).toNat) = .ok i ∧
    exec .qdecSample s = exec i s

/-- The four codes with `was = is` write `enc.is` and nothing else, and give no event (R94, R150). That a code run alone
does so whatever `enc.was` holds is the model's choice, log 14: it takes `was` from the code. -/
def Obligations.NoChangeCodesWriteOnlyIs : Prop :=
  ∀ s : State,
    exec .qtNop00 s = .next { s with enc := { s.enc with is := 0 }, out := .rot .none } ∧
    exec .qtNop11 s = .next { s with enc := { s.enc with is := 1 }, out := .rot .none } ∧
    exec .qtNop22 s = .next { s with enc := { s.enc with is := 2 }, out := .rot .none } ∧
    exec .qtNop33 s = .next { s with enc := { s.enc with is := 3 }, out := .rot .none }

/-- The eight ignored codes update `enc.was` and `enc.is`, leave the accumulator and give no event (R94, R101, R150). For
an `enc.was` that is not the code's own `was` this is the model's choice, log 14. -/
def Obligations.IgnoredCodesOnlyAbsorb : Prop :=
  ∀ s : State,
    exec .qdecStep01 s = .next { s with enc := { s.enc with is := 1, was := 1 }, out := .rot .none } ∧
    exec .qdecStep02 s = .next { s with enc := { s.enc with is := 2, was := 2 }, out := .rot .none } ∧
    exec .qdecStep03 s = .next { s with enc := { s.enc with is := 3, was := 3 }, out := .rot .none } ∧
    exec .qdecStep10 s = .next { s with enc := { s.enc with is := 0, was := 0 }, out := .rot .none } ∧
    exec .qdecStep12 s = .next { s with enc := { s.enc with is := 2, was := 2 }, out := .rot .none } ∧
    exec .qdecStep20 s = .next { s with enc := { s.enc with is := 0, was := 0 }, out := .rot .none } ∧
    exec .qdecStep21 s = .next { s with enc := { s.enc with is := 1, was := 1 }, out := .rot .none } ∧
    exec .qdecStep30 s = .next { s with enc := { s.enc with is := 0, was := 0 }, out := .rot .none }

/-- The four counted codes take their step: 1→3 and 3→2 are −1, 3→1 and 2→3 are +1 (R94, R150, R153). For an `enc.was`
that is not the code's own `was` this is the model's choice, log 14. -/
def Obligations.CountedCodesTakeTheirStep : Prop :=
  ∀ s : State, 1 ≤ s.cfg.wAcc →
    Counted .minus 3 s (exec .qdecStep13 s) ∧ Counted .minus 2 s (exec .qdecStep32 s) ∧
    Counted .plus 1 s (exec .qdecStep31 s) ∧ Counted .plus 3 s (exec .qdecStep23 s)

/-- `QDEC.SAMPLE` (R150): the sample is `{~ENC_A, ~ENC_B}`; an equal one writes `enc.is` alone, a differing one of step 0
is absorbed, a counted one also moves the accumulator and may give an event. -/
def Obligations.QdecSampleEffect : Prop :=
  ∀ s : State, 1 ≤ s.cfg.wAcc → ∀ q : Sample, q.toNat = (!s.pins.encA).toNat * 2 + (!s.pins.encB).toNat →
    (q = s.enc.was →
      exec .qdecSample s = .next { s with enc := { s.enc with is := q }, out := .rot .none }) ∧
    (q ≠ s.enc.was → (s.enc.was, q) ∉ [((3 : Sample), (2 : Sample)), (1, 3), (3, 1), (2, 3)] →
      exec .qdecSample s = .next { s with enc := { s.enc with is := q, was := q }, out := .rot .none }) ∧
    ((s.enc.was, q) ∈ [((3 : Sample), (2 : Sample)), (1, 3)] → Counted .minus q s (exec .qdecSample s)) ∧
    ((s.enc.was, q) ∈ [((3 : Sample), (1 : Sample)), (2, 3)] → Counted .plus q s (exec .qdecSample s))

/-- `QDEC.STEP` is the transition table, and writes nothing (R152). -/
def Obligations.QdecStepIsTheTable : Prop :=
  ∀ (s : State) (was is : Sample), was ≠ is →
    exec (.qdecStep was is) s = .next { s with out := .step (some (
      if (was, is) = (3, 2) ∨ (was, is) = (1, 3) then .minus
      else if (was, is) = (3, 1) ∨ (was, is) = (2, 3) then .plus
      else .zero)) }

/-- `QDEC.GATE` (R153): the accumulator wraps on `W_ACC` bits, an event is given exactly when it has become even, with the
direction of the step just taken, and nothing else changes. -/
def Obligations.QdecGateEffect : Prop :=
  ∀ (s : State) (d : Dir), 1 ≤ s.cfg.wAcc →
    ∃ a, WrapsTo s.cfg.wAcc s.enc.acc d a ∧
      exec (.qdecGate d) s = .next { s with enc := { s.enc with acc := a }, out := .rot (gatedEvent d a) }

/-- "an event is emitted to the dispatcher only every second accumulated step" (R153): of two steps in a row, whatever
their signs and whatever wraps, exactly one gives an event. -/
def Obligations.EverySecondStepEmits : Prop :=
  ∀ (s t u : State) (d e : Dir), 1 ≤ s.cfg.wAcc → exec (.qdecGate d) s = .next t → exec (.qdecGate e) t = .next u →
    ((t.out = .rot .none ∧ u.out ≠ .rot .none) ∨ (t.out ≠ .rot .none ∧ u.out = .rot .none))

/-- "Starting from an even accumulator, each such cycle emits exactly one event, on its last transition (the arrival at 3),
`up` for the first walk and `down` for the second" (R154). -/
def Obligations.OneDetentOneEvent : Prop :=
  ∀ (s : State) (b : Bool), 1 ≤ s.cfg.wAcc → s.enc.was = 3 → s.enc.acc % 2 = 0 →
    (∃ t₁ t₂ t₃ t₄, exec .qdecSample (present 1 b s) = .next t₁ ∧ exec .qdecSample (present 0 b t₁) = .next t₂ ∧
      exec .qdecSample (present 2 b t₂) = .next t₃ ∧ exec .qdecSample (present 3 b t₃) = .next t₄ ∧
      t₁.out = .rot .none ∧ t₂.out = .rot .none ∧ t₃.out = .rot .none ∧ t₄.out = .rot .up ∧
      t₄.enc.was = 3 ∧ t₄.enc.acc % 2 = 0) ∧
    (∃ t₁ t₂ t₃ t₄, exec .qdecSample (present 2 b s) = .next t₁ ∧ exec .qdecSample (present 0 b t₁) = .next t₂ ∧
      exec .qdecSample (present 1 b t₂) = .next t₃ ∧ exec .qdecSample (present 3 b t₃) = .next t₄ ∧
      t₁.out = .rot .none ∧ t₂.out = .rot .none ∧ t₃.out = .rot .none ∧ t₄.out = .rot .down ∧
      t₄.enc.was = 3 ∧ t₄.enc.acc % 2 = 0)

/-- `BTN.SAMPLE` (R155): the sample is `~BTN`; a change updates `buttonLast` and gives `down` when pressed, `up` when
released; no change gives no event and leaves `buttonLast`. -/
def Obligations.BtnSampleEffect : Prop :=
  ∀ s : State,
    ((!s.pins.btn) = s.enc.buttonLast →
      exec .btnSample s = .next { s with enc := { s.enc with buttonNow := !s.pins.btn }, out := .btn .none }) ∧
    ((!s.pins.btn) ≠ s.enc.buttonLast →
      exec .btnSample s = .next { s with
        enc := { s.enc with buttonNow := !s.pins.btn, buttonLast := !s.pins.btn }
        out := .btn (if s.pins.btn then .up else .down) })

/-- The two halves of the decoder share no state: the end state of the block is the same in either order (R157). -/
def Obligations.DecoderHalvesCommute : Prop :=
  ∀ s : State, ∃ a b c d, exec .qdecSample s = .next a ∧ exec .btnSample a = .next b ∧
    exec .btnSample s = .next c ∧ exec .qdecSample c = .next d ∧ { d with out := b.out } = b ∧
    a.out = d.out ∧ b.out = c.out

/-! ### InputDispatcher -/

/-- `EV.ROT_UP` and `EV.ROT_DOWN`: "advances `highlightedIndex` by +1/−1 modulo N" (R220, R221, R64). -/
def Obligations.RotateEventsMoveTheIndexModuloN : Prop :=
  ∀ s : State, s.eng.highlightedIndex < s.cfg.n →
    exec .evRotUp s = .next { s with
      eng := { s.eng with highlightedIndex := (s.eng.highlightedIndex + 1) % s.cfg.n }, out := .nothing } ∧
    exec .evRotDown s = .next { s with
      eng := { s.eng with highlightedIndex := (s.eng.highlightedIndex + (s.cfg.n - 1)) % s.cfg.n }, out := .nothing }

/-- The button events and the mode switches they invoke, from any mode (R222 to R225). -/
def Obligations.ButtonEventsSwitchTheMode : Prop :=
  ∀ s : State,
    exec .modeConfirm s = .next { s with
      eng := { s.eng with activeMode := .selectedHighlightOnly }, out := .nothing } ∧
    exec .modeDefault s = .next { s with eng := { s.eng with activeMode := .fadingHighlight }, out := .nothing } ∧
    exec .evBtnDown s = .next { s with
      eng := { s.eng with activeMode := .selectedHighlightOnly }, out := .nothing } ∧
    exec .evBtnUp s = .next { s with eng := { s.eng with activeMode := .fadingHighlight }, out := .nothing }

/-- "the end state is the same in either order" of a rotate and a button event (R226, R236). -/
def Obligations.EventOrderIsUnobservable : Prop :=
  ∀ s : State, ∀ r ∈ [Instr.evRotUp, Instr.evRotDown], ∀ b ∈ [Instr.evBtnDown, Instr.evBtnUp],
    ∃ t, execAll [r, b] s = .next t ∧ execAll [b, r] s = .next t

/-! ### EffectEngine -/

/-- `HUE.INIT(i) = (i * (HUE_MAX + 1)) div N` for an `i` in `[0, N)`, a pure function, always a legal hue (R180). What it
does past the ring is in `UnstatedResultsAreFreeValues`. -/
def Obligations.HueInitIsTheSweep : Prop :=
  ∀ (s : State) (i : Nat), i < s.cfg.n →
    exec (.hueInit i) s = .next { s with out := .hue ((i * (s.cfg.hueMax + 1)) / s.cfg.n) } ∧
    (i * (s.cfg.hueMax + 1)) / s.cfg.n ≤ s.cfg.hueMax

/-- The sweep starts at 0, never falls, and rises strictly when `N <= 1536` (R180). -/
def Obligations.HueSweepRises : Prop :=
  ∀ c : Cfg, c.wf = true → c.hueInit 0 = 0 ∧
    ∀ i j, i < j → j < c.n → c.hueInit i ≤ c.hueInit j ∧ (c.n ≤ 1536 → c.hueInit i < c.hueInit j)

/-- `HSV2RGB` (R182, R183 P1): a pure function whose result depends on the three operands alone, in every configuration,
also one whose function is a free one (log 3). For a hue above `HUE_MAX`, where it "need not be defined" (R101), that it
completes so is the model's choice (log 4). Where the configuration's function is the reference one, the result is R184's
sector form, every channel fitting 8 bits. -/
def Obligations.Hsv2rgbEffect : Prop :=
  (∀ x : PixelHSV, ∀ c : Cfg, ∃ px : Pixel, ∀ s : State, s.cfg = c →
    exec (.hsv2rgb x) s = .next { s with out := .pixel px }) ∧
  (∀ (s : State) (x : PixelHSV), s.cfg.hsvFn = .reference → x.h.toNat ≤ 1535 →
    ∃ px : Pixel, exec (.hsv2rgb x) s = .next { s with out := .pixel px } ∧
      let v := x.v.toNat
      let f := x.h.toNat % 256
      let p := (v * (255 - x.s.toNat)) / 255
      let q := (v * (65280 - x.s.toNat * f)) / 65280
      let t := (v * (65280 - x.s.toNat * (256 - f))) / 65280
      (px.r.toNat, px.g.toNat, px.b.toNat) =
        match x.h.toNat / 256 with
        | 0 => (v, t, p)
        | 1 => (q, v, p)
        | 2 => (p, v, t)
        | 3 => (p, q, v)
        | 4 => (t, p, v)
        | _ => (v, p, q))

/-- The reference function has the properties P2 to P5 R183 asks of any `HSV2RGB`: grey at S = 0, monotonic in V and black
at V = 0, the primaries and secondaries at the sector starts, piecewise-linear in the hue. -/
def Obligations.ReferenceConversionMeetsItsProperties : Prop := HsvLaws hsv2rgbRef

/-- `FADE` (R185): every pixel above the floor falls by the decay step, clamped at the floor; a pixel at or below the floor
stays; the highlighted one is then bright; `H`, `S` and all else stay. The premises are R46 (1) and (2). -/
def Obligations.FadeEffect : Prop :=
  ∀ s : State, s.eng.frameHSV.length = s.cfg.n → s.eng.highlightedIndex < s.cfg.n →
    ∃ t, exec .fade s = .next t ∧
      t = { s with eng := { s.eng with frameHSV := t.eng.frameHSV }, out := .nothing } ∧
      t.eng.frameHSV.length = s.cfg.n ∧
      ∀ i, i < s.cfg.n →
        (t.readCell i).h = (s.readCell i).h ∧ (t.readCell i).s = (s.readCell i).s ∧
        (t.readCell i).v.toNat =
          if i = s.eng.highlightedIndex then s.cfg.vBright.toNat
          else if (s.readCell i).v.toNat ≤ s.cfg.vFloor.toNat then (s.readCell i).v.toNat
          else if s.cfg.vDecay.toNat < (s.readCell i).v.toNat - s.cfg.vFloor.toNat then
            (s.readCell i).v.toNat - s.cfg.vDecay.toNat
          else s.cfg.vFloor.toNat

/-- Convergence (R193): after `k` `FADE`s a non-highlighted pixel that held `V0 >= V_FLOOR` holds
`max(V_FLOOR, V0 − k·V_DECAY)`, so it has reached the floor exactly from the `ceil((V0 − V_FLOOR) / V_DECAY)`-th on; the
highlighted pixel is bright from the first. -/
def Obligations.FadeConverges : Prop :=
  ∀ (s : State) (k : Nat), 1#8 ≤ s.cfg.vDecay → s.eng.frameHSV.length = s.cfg.n → s.eng.highlightedIndex < s.cfg.n →
    ∃ t, execAll (List.replicate k .fade) s = .next t ∧
      (1 ≤ k → (t.readCell s.eng.highlightedIndex).v = s.cfg.vBright) ∧
      ∀ i, i < s.cfg.n → i ≠ s.eng.highlightedIndex → s.cfg.vFloor ≤ (s.readCell i).v →
        (t.readCell i).v.toNat = max s.cfg.vFloor.toNat ((s.readCell i).v.toNat - k * s.cfg.vDecay.toNat) ∧
        ((t.readCell i).v = s.cfg.vFloor ↔
          ((s.readCell i).v.toNat - s.cfg.vFloor.toNat + (s.cfg.vDecay.toNat - 1)) / s.cfg.vDecay.toNat ≤ k)

/-- `RENDER.SH` and `RENDER.PF` (R186, R187): pure; N pixels, `SH_ON` at the highlighted index and `SH_OFF` elsewhere; the
palette whatever the index. -/
def Obligations.RenderOfFixedColours : Prop :=
  (∀ s : State, ∃ f, exec .renderSh s = .next { s with out := .frame f } ∧ f.length = s.cfg.n ∧
    ∀ i, i < s.cfg.n → f[i]? = some (if i = s.eng.highlightedIndex then s.cfg.shOn else s.cfg.shOff)) ∧
  (∀ s : State, s.cfg.palette.length = s.cfg.n → exec .renderPf s = .next { s with out := .frame s.cfg.palette })

/-- `RENDER.FH` and `RENDER.SEL` (R188, R189): pure; N pixels, each from its own HSV; or every one from the current HSV of
the highlighted index, nothing forced. -/
def Obligations.RenderFromStoredHsv : Prop :=
  (∀ s : State, ∃ f, exec .renderFh s = .next { s with out := .frame f } ∧ f.length = s.cfg.n ∧
    ∀ i, i < s.cfg.n →
      f[i]? = some (s.cfg.hsv2rgb (s.readCell i).h (s.readCell i).s (s.readCell i).v)) ∧
  (∀ s : State, ∃ f, exec .renderSel s = .next { s with out := .frame f } ∧ f.length = s.cfg.n ∧
    ∀ px ∈ f, px = s.cfg.hsv2rgb (s.readCell s.eng.highlightedIndex).h (s.readCell s.eng.highlightedIndex).s
      (s.readCell s.eng.highlightedIndex).v)

/-- `RENDER` (R192): selected by the mode; the skip exists in SingleHighlight only and changes nothing; `FADE` runs first
in FadingHighlight only; a rendered frame is noted as the last one. -/
def Obligations.RenderIsSelectedByMode : Prop :=
  ∀ s : State,
    let noted := fun (u : State) (f : List Pixel) => { u with
      eng := { u.eng with lastRenderedValid := true, lastRenderedIndex := u.eng.highlightedIndex }, out := .frame f }
    (s.eng.activeMode = .singleHighlight →
      s.eng.lastRenderedValid = true ∧ s.eng.lastRenderedIndex = s.eng.highlightedIndex →
      exec .render s = .next { s with out := .skip }) ∧
    (s.eng.activeMode = .singleHighlight →
      ¬ (s.eng.lastRenderedValid = true ∧ s.eng.lastRenderedIndex = s.eng.highlightedIndex) →
      ∃ f, exec .renderSh s = .next { s with out := .frame f } ∧ exec .render s = .next (noted s f)) ∧
    (s.eng.activeMode = .paletteFrame →
      ∃ f, exec .renderPf s = .next { s with out := .frame f } ∧ exec .render s = .next (noted s f)) ∧
    (s.eng.activeMode = .fadingHighlight →
      ∃ u f, exec .fade s = .next u ∧ exec .renderFh u = .next { u with out := .frame f } ∧
        exec .render s = .next (noted u f)) ∧
    (s.eng.activeMode = .selectedHighlightOnly →
      ∃ f, exec .renderSel s = .next { s with out := .frame f } ∧ exec .render s = .next (noted s f))

/-! ### PixelBitstreamDriver -/

/-- `TX.BIT` (R123): exactly one `Byte`, the pattern of the bit; nothing outside the serializer's transient fields changes.
The values of those are the model's: the register under it has done its eight shifts of R132 (logs 15, 35), the count of
bits left is 0 (log 16), the port stands at the pattern's last bit (log 27). -/
def Obligations.TxBitEmitsItsPattern : Prop :=
  ∀ s : State,
    exec .txBit1 s = .next { s with
      drv := { s.drv with sr := 0, srLeft := 0, pixOut := s.cfg.patOne.getLsbD 0 }
      wire := s.wire ++ [.byte s.cfg.patOne], out := .nothing } ∧
    exec .txBit0 s = .next { s with
      drv := { s.drv with sr := 0, srLeft := 0, pixOut := s.cfg.patZero.getLsbD 0 }
      wire := s.wire ++ [.byte s.cfg.patZero], out := .nothing }

/-- The shift register under one `Byte` (R132): a load and eight shifts drive `b[7]` first and `b[0]` last on `PIX_OUT` and
leave the register empty. The count `srLeft` (log 16) and the level the port keeps (log 27) are the model's. -/
def Obligations.ShiftRegisterSendsMsbFirst : Prop :=
  ∀ (b : Byte) (d : DriverState),
    DriverState.shiftLevels 8 (d.load b) = (List.range 8).map (fun j => b.getLsbD (7 - j)) ∧
    (d.load b).shifts 8 = { d with sr := 0, srLeft := 0, pixOut := b.getLsbD 0 }

/-- `TX.CHAN` (R124) and `TX.PIXEL` (R125): eight bytes, bit 7 first; 24 bytes, G then R then B. Only the trace and the
transient serializer fields change (R36). -/
def Obligations.ChannelAndPixelOnTheWire : Prop :=
  (∀ (s : State) (c : Byte), ∃ t, exec (.txChan c) s = .next t ∧ t.drv.irqMask = s.drv.irqMask ∧
    t = { s with
      drv := t.drv
      wire := s.wire ++ bitSyms s.cfg ((List.range 8).map fun j => c.getLsbD (7 - j))
      out := .nothing }) ∧
  (∀ (s : State) (p : Pixel), ∃ t, exec (.txPixel p) s = .next t ∧ t.drv.irqMask = s.drv.irqMask ∧
    t = { s with drv := t.drv, wire := s.wire ++ bitSyms s.cfg (wireBits p), out := .nothing })

/-- `TX.FRAME` (R126): exactly `Mask(1)`, 24·N bytes, `Mask(0)`, `Gap(GAP_SHOW_US)`; interrupts enabled after it; `enc`,
`eng` and the rest untouched. The low line at the end is no part of R126: it is R103's resting level, decided by D6, and the
model's choice (logs 27, 35). -/
def Obligations.TxFrameEffect : Prop :=
  ∀ (s : State) (f : List Pixel), f.length = s.cfg.n →
    ∃ t, exec (.txFrame f) s = .next t ∧ t.drv.irqMask = false ∧ t.drv.pixOut = false ∧
      t = { s with
        drv := t.drv
        wire := s.wire ++ .mask true :: bitSyms s.cfg (f.flatMap wireBits) ++ [.mask false, .gap s.cfg.gapShowUs]
        fresh := t.fresh
        out := .nothing }

/-- `BLANK` and `INIT` (R121, R122): a leading gap outside the bracket, 24·N zero bits, a latching gap; `enc` and `eng`
untouched; after `INIT` the ticks may begin (R281). `INIT` is R121's; the bit `initDone` is the model's (log 23), and that a
second `INIT` sends a second blank is log 22's. -/
def Obligations.InitSendsTheBlank : Prop :=
  ∀ s : State,
    let wire' := s.wire ++ .gap s.cfg.gapPreUs :: .mask true ::
      bitSyms s.cfg (List.replicate (24 * s.cfg.n) false) ++ [.mask false, .gap s.cfg.gapBlankUs]
    (∃ t, exec .blank s = .next t ∧ t.drv.irqMask = false ∧
      t = { s with drv := t.drv, wire := wire', fresh := t.fresh, out := .nothing }) ∧
    (∃ t, exec .init s = .next t ∧ t.drv.irqMask = false ∧
      t = { s with drv := t.drv, wire := wire', initDone := true, fresh := t.fresh, out := .nothing })

/-- `SHOW`, `IRQ.MASK`, `IRQ.UNMASK` (R128, R129, R130): one symbol each; the mask bit set or cleared whatever it was. The
low line in a gap is R103's, decided by D6, and the model's choice (logs 27, 35). -/
def Obligations.ShowAndMaskEffects : Prop :=
  ∀ s : State,
    exec .showGap s = .next { s with
      drv := { s.drv with pixOut := false }, wire := s.wire ++ [.gap s.cfg.gapShowUs], out := .nothing } ∧
    exec .irqMask s = .next { s with
      drv := { s.drv with irqMask := true }, wire := s.wire ++ [.mask true], out := .nothing } ∧
    exec .irqUnmask s = .next { s with
      drv := { s.drv with irqMask := false }, wire := s.wire ++ [.mask false], out := .nothing }

/-- "Byte `24·i + j` of the frame carries logical bit `23-j` of `WP(Frame[i])`" (R97). -/
def Obligations.FrameBytePositions : Prop :=
  ∀ (c : Cfg) (f : List Pixel) (i j : Nat) (p : Pixel), f[i]? = some p → j < 24 →
    (frameBytes c f)[24 * i + j]? =
      some (if (p.g ++ p.r ++ p.b : BitVec 24).getLsbD (23 - j) then c.patOne else c.patZero)

/-- `DecodeWire` (R104): the inverse of the frame format; `invalid` on any other length and on any byte that is no
pattern. -/
def Obligations.DecodeWireInvertsTheFrameFormat : Prop :=
  ∀ c : Cfg, c.patOne ≠ c.patZero →
    (∀ f : List Pixel, f.length = c.n → decodeWire c (frameBytes c f) = some f) ∧
    (∀ l : List Byte, l.length ≠ 24 * c.n → decodeWire c l = none) ∧
    (∀ l : List Byte, (∃ b ∈ l, b ≠ c.patOne ∧ b ≠ c.patZero) → decodeWire c l = none)

/-- Two frames that differ give different bytes, and every frame of N pixels is 24·N bytes, 192·N line bit times, whatever
its colours (R131). -/
def Obligations.FramesDifferOnTheWire : Prop :=
  ∀ c : Cfg, c.patOne ≠ c.patZero → ∀ f g : List Pixel, f.length = c.n → g.length = c.n →
    (f ≠ g → frameBytes c f ≠ frameBytes c g) ∧ (frameBytes c f).length = 24 * c.n ∧
    ((frameSyms c f).flatMap Sym.levels).length = 192 * c.n

/-- The critical section (R127): the operations that send a frame keep the trace bracketed and leave interrupts enabled. A
tick that skips sends nothing and leaves the mask bit as it was. -/
def Obligations.FramesStandInBrackets : Prop :=
  ∀ (s t : State), bracketed s.wire = true →
    (∀ i : Instr, i = .init ∨ i = .blank ∨ (∃ f, i = .txFrame f) → exec i s = .next t →
      bracketed t.wire = true ∧ t.drv.irqMask = false) ∧
    (∀ p : Pins, exec (.tick p) s = .next t →
      bracketed t.wire = true ∧ (t.drv.irqMask = false ∨ (t.wire = s.wire ∧ t.drv = s.drv)))

/-- What the ring shows is the last frame sent and latched (R44): black after `INIT`, the frame after `TX.FRAME`, whatever
was sent before. It rests on the premise that the platform honours `IRQ_MASK` (R285; log 19). -/
def Obligations.RingShowsTheLastFrame : Prop :=
  ∀ (s t : State), s.cfg.patOne ≠ s.cfg.patZero →
    (exec .init s = .next t → ringShows t.cfg t.wire = some (List.replicate s.cfg.n ⟨0, 0, 0⟩)) ∧
    (∀ f : List Pixel, f.length = s.cfg.n → exec (.txFrame f) s = .next t → ringShows t.cfg t.wire = some f)

/-! ### The tick, reset -/

/-- `TICK` (R235): sample the encoder, sample the button, route the rotate event, route the button event, render, transmit
the frame if there is one. -/
def Obligations.TickIsTheFixedOrder : Prop :=
  ∀ (s : State) (p : Pins), ∃ (a b c d e : State) (r : RotEvent) (v : BtnEvent),
    exec .qdecSample { s with pins := p } = .next a ∧ a.out = .rot r ∧
    exec .btnSample a = .next b ∧ b.out = .btn v ∧
    (match r with
      | .none => c = b
      | .up => exec .evRotUp b = .next c
      | .down => exec .evRotDown b = .next c) ∧
    (match v with
      | .none => d = c
      | .down => exec .evBtnDown c = .next d
      | .up => exec .evBtnUp c = .next d) ∧
    exec .render d = .next e ∧
    ((e.out = .skip ∧ exec (.tick p) s = .next { e with out := .nothing }) ∨
      ∃ f, e.out = .frame f ∧ exec (.tick p) s = exec (.txFrame f) e)

/-- "every tick transmits exactly one frame, except a skipped SingleHighlight tick, which transmits none" (R235): the tick
completes, and its trace segment is empty or one whole frame of N pixels. -/
def Obligations.TickSendsOneFrameOrNone : Prop :=
  ∀ (s : State) (p : Pins), ∃ t, exec (.tick p) s = .next t ∧
    ((t.wire = s.wire ∧ t.drv = s.drv ∧ t.eng.activeMode = .singleHighlight ∧ s.eng.lastRenderedValid = true ∧
        s.eng.lastRenderedIndex = t.eng.highlightedIndex) ∨
      (∃ f : List Pixel, f.length = s.cfg.n ∧ t.drv.irqMask = false ∧ t.eng.lastRenderedValid = true ∧
        t.eng.lastRenderedIndex = t.eng.highlightedIndex ∧
        t.wire = s.wire ++ .mask true :: bitSyms s.cfg (f.flatMap wireBits) ++ [.mask false, .gap s.cfg.gapShowUs]))

/-- The frame of a tick: the configuration, the queue and the boot bit stay; so do every `H` and every `S` (R32); every `V`
stays unless the tick ends in FadingHighlight (R185 (6)); the samples are absorbed (R23, R25). -/
def Obligations.TickFrame : Prop :=
  ∀ (s : State) (p : Pins), ∃ t, exec (.tick p) s = .next t ∧
    t = { s with
      enc := t.enc, eng := t.eng, drv := t.drv, pins := p, wire := t.wire, fresh := t.fresh, out := .nothing } ∧
    t.eng.frameHSV.length = s.eng.frameHSV.length ∧
    (∀ i, (t.readCell i).h = (s.readCell i).h ∧ (t.readCell i).s = (s.readCell i).s) ∧
    (t.eng.activeMode ≠ .fadingHighlight → t.eng.frameHSV = s.eng.frameHSV) ∧
    t.enc.is = p.sample ∧ t.enc.was = p.sample ∧ t.enc.buttonNow = p.pressed ∧ t.enc.buttonLast = p.pressed

/-- The atomic `TICK` is its phases run one after another, the frame sent one logical bit at a time in the order of the
position triple (R27, R28, R237): 7 small steps, and 24·N more when a frame is sent. The phase machine and its count of
small steps are the model's (log 26). -/
def Obligations.TickRefinesToItsPhases : Prop :=
  ∀ (s : State) (p : Pins), 1 ≤ s.cfg.n →
    ∃ u, exec (.tick p) s = .next { u with out := .nothing } ∧
      MidTick.run (7 + if u.wire = s.wire then 0 else 24 * s.cfg.n) (MidTick.resting { s with pins := p }) =
        MidTick.resting u

/-- The first tick (R283): from the reset values no rotate event can occur, whatever the lines read; a button already held
confirms at once; in FadingHighlight pixel 0 is bright and every other at the floor. -/
def Obligations.FirstTickAfterReset : Prop :=
  ∀ (s : State) (p : Pins) (k : Nat), s.cfg.wf = true → s.enc = EncoderState.reset → s.eng = EngineState.reset s.cfg k →
    ∃ t, exec (.tick p) s = .next t ∧ t.eng.highlightedIndex = 0 ∧ t.enc.acc = 0 ∧ t.enc.was = p.sample ∧
      (p.btn = false → t.eng.activeMode = .selectedHighlightOnly) ∧
      (p.btn = true → t.eng.activeMode = s.cfg.resetMode) ∧
      (p.btn = true → s.cfg.resetMode = .fadingHighlight → ∀ i, i < s.cfg.n →
        (t.readCell i).v = if i = 0 then s.cfg.vBright else s.cfg.vFloor)

/-- One detent moves the highlight by one position: `DETENT_UP` and `DETENT_DOWN` from rest at 3 with an even accumulator,
run as ticks (R106, R154, R220, R221). -/
def Obligations.OneDetentMovesTheHighlight : Prop :=
  ∀ (s : State) (b : Bool), 1 ≤ s.cfg.wAcc → s.eng.highlightedIndex < s.cfg.n → s.enc.was = 3 → s.enc.acc % 2 = 0 →
    (∃ t, execAll ((Pseudo.detentUp.expand 3 b).map Line.instr) s = .next t ∧
      t.eng.highlightedIndex = (s.eng.highlightedIndex + 1) % s.cfg.n ∧ t.enc.was = 3 ∧ t.enc.acc % 2 = 0) ∧
    (∃ t, execAll ((Pseudo.detentDown.expand 3 b).map Line.instr) s = .next t ∧
      t.eng.highlightedIndex = (s.eng.highlightedIndex + (s.cfg.n - 1)) % s.cfg.n ∧ t.enc.was = 3 ∧
      t.enc.acc % 2 = 0)

/-- `RESET` (R280): every field the rule gives a value has it, the trace is empty, `INIT` is to come; the configuration,
the lines and the queue stay. Nothing is said of `lastRenderedIndex` and the driver's fields: the rule leaves them
unspecified (log 6). -/
def Obligations.ResetEffect : Prop :=
  ∀ s : State, ∃ t, exec .reset s = .next t ∧
    t = { s with
      enc := ⟨0, 0, 0, false, false⟩
      eng := ⟨(List.range s.cfg.n).map (fun i =>
          ⟨BitVec.ofNat 16 ((i * (s.cfg.hueMax + 1)) / s.cfg.n), s.cfg.sat, s.cfg.vFloor⟩),
        0, s.cfg.resetMode, false, t.eng.lastRenderedIndex⟩
      drv := t.drv
      wire := []
      initDone := false
      fresh := t.fresh
      out := .nothing }

/-- The state after reset (R47), the entries the rule gives a value; and the default configuration of R5 (`N = 24`, mode
FadingHighlight) meets its constraints. The model's own: the empty queue (log 9), the clear `initDone` (log 23), and that
`State.reset` has the default configuration (log 2). -/
def Obligations.ResetStateValues : Prop :=
  (∀ c : Cfg,
    (State.resetWith c).cfg = c ∧
    (State.resetWith c).enc = ⟨0, 0, 0, false, false⟩ ∧
    (State.resetWith c).eng.frameHSV = (List.range c.n).map (fun i =>
      ⟨BitVec.ofNat 16 ((i * (c.hueMax + 1)) / c.n), c.sat, c.vFloor⟩) ∧
    (State.resetWith c).eng.highlightedIndex = 0 ∧ (State.resetWith c).eng.activeMode = c.resetMode ∧
    (State.resetWith c).eng.lastRenderedValid = false ∧ (State.resetWith c).wire = [] ∧
    (State.resetWith c).initDone = false ∧ (State.resetWith c).queue = []) ∧
  State.reset = State.resetWith Cfg.default ∧ Cfg.default.valid ∧ Cfg.default.n = 24 ∧
  Cfg.default.resetMode = .fadingHighlight

/-! ### The whole machine -/

/-- "Every `TICK` from every state with every input has exactly one successor state" (R10), and so has every other
operation: the block raises no exception (R250) and the model refuses none of its operations. -/
def Obligations.EveryOperationCompletes : Prop := ∀ (i : Instr) (s : State), ∃ t, exec i s = .next t

/-- Write ownership (R36): no operation writes a field outside its row. `TICK` and `RESET` aside, each field is written by
its own writers only; the configuration by none; `H` and `S` of a pixel by `RESET` alone; the transient serializer fields
by `TX.FRAME`, the blank and their parts alone, the positions by no `TX.BIT`. Three readings are the model's: that the
transition codes write what `QDEC.SAMPLE` writes (log 14), that `TX.BIT` and its like move the shift register (log 15), and
the port's level `pixOut`, which gaps write too (log 27). The trace is no field of R36 (log 12). -/
def Obligations.WriteOwnership : Prop :=
  ∀ (i : Instr) (s t : State), exec i s = .next t →
    t.cfg = s.cfg ∧
    (t.enc.is = s.enc.is ∧ t.enc.was = s.enc.was ∨ i = .qdecSample ∨ isCode i = true ∨ isWhole i) ∧
    (t.enc.acc = s.enc.acc ∨ (∃ d, i = .qdecGate d) ∨ i = .qdecSample ∨
      i ∈ [Instr.qdecStep13, .qdecStep31, .qdecStep23, .qdecStep32] ∨ isWhole i) ∧
    (t.enc.buttonNow = s.enc.buttonNow ∧ t.enc.buttonLast = s.enc.buttonLast ∨ i = .btnSample ∨ isWhole i) ∧
    (t.eng.highlightedIndex = s.eng.highlightedIndex ∨ i = .evRotUp ∨ i = .evRotDown ∨ isWhole i) ∧
    (t.eng.activeMode = s.eng.activeMode ∨ i ∈ [Instr.evBtnDown, .evBtnUp, .modeConfirm, .modeDefault] ∨ isWhole i) ∧
    (t.eng.frameHSV = s.eng.frameHSV ∨ i = .fade ∨ i = .render ∨ isWhole i) ∧
    (t.eng.frameHSV.map (fun x => (x.h, x.s)) = s.eng.frameHSV.map (fun x => (x.h, x.s)) ∨ i = .reset) ∧
    (t.eng.lastRenderedValid = s.eng.lastRenderedValid ∧ t.eng.lastRenderedIndex = s.eng.lastRenderedIndex ∨
      i = .render ∨ isWhole i) ∧
    (t.drv.irqMask = s.drv.irqMask ∨ i ∈ [Instr.irqMask, .irqUnmask, .blank, .init] ∨ (∃ f, i = .txFrame f) ∨
      isWhole i) ∧
    (t.drv.sr = s.drv.sr ∧ t.drv.srLeft = s.drv.srLeft ∨ sendsBytes i = true ∨ isWhole i) ∧
    (t.drv.txPixel = s.drv.txPixel ∧ t.drv.txChan = s.drv.txChan ∧ t.drv.txBit = s.drv.txBit ∨
      (sendsBytes i = true ∧ i ≠ .txBit0 ∧ i ≠ .txBit1) ∨ isWhole i) ∧
    (t.drv.pixOut = s.drv.pixOut ∨ sendsBytes i = true ∨ i = .showGap ∨ isWhole i) ∧
    (t.wire = s.wire ∨ sendsBytes i = true ∨ i ∈ [Instr.showGap, .irqMask, .irqUnmask] ∨ isWhole i)

/-- "SingleHighlight and PaletteFrame can be active only as the reset value, and never again after the first button edge"
(R35): no operation but `RESET` leads into either. -/
def Obligations.NoWayBackToTheResetOnlyModes : Prop :=
  ∀ (i : Instr) (s t : State), i ≠ .reset → exec i s = .next t →
    t.eng.activeMode = s.eng.activeMode ∨ t.eng.activeMode = .selectedHighlightOnly ∨
      t.eng.activeMode = .fadingHighlight

/-- "changes by at most one position per tick" (R34): after a tick the index is where it was or one position on or back,
and still in `[0, N)`. -/
def Obligations.IndexMovesAtMostOnePerTick : Prop :=
  ∀ (s t : State) (p : Pins), s.eng.highlightedIndex < s.cfg.n → exec (.tick p) s = .next t →
    t.eng.highlightedIndex < s.cfg.n ∧
    (t.eng.highlightedIndex = s.eng.highlightedIndex ∨
      t.eng.highlightedIndex = (s.eng.highlightedIndex + 1) % s.cfg.n ∨
      t.eng.highlightedIndex = (s.eng.highlightedIndex + (s.cfg.n - 1)) % s.cfg.n)

/-- R46 (1) to (4) and (8) and the accumulator's range are kept by every operation, not by the life's alone. -/
def Obligations.EveryOperationKeepsShape : Prop :=
  ∀ (i : Instr) (s t : State), s.Shape → exec i s = .next t → t.Shape

/-- R46 holds right after reset, with the default configuration and with any that meets its constraints. -/
def Obligations.InvariantHoldsAtReset : Prop :=
  State.reset.Inv ∧ ∀ c : Cfg, c.valid → (State.resetWith c).Inv

/-- R46 and R127 are kept by every step: the index in range, N records with their hues, every `V` between the floor and
bright, the samples absorbed, interrupts enabled from `INIT` on, the trace bracketed. -/
def Obligations.StepKeepsTheInvariant : Prop := ∀ s t : State, s.Inv → step s = .next t → t.Inv

/-- "There is no fatal-error path"; "it runs until power-off" (R10): from a state that meets the invariant no number of
steps meets a fault or a refusal. -/
def Obligations.TheBlockNeverStops : Prop := ∀ (s : State) (k : Nat), s.Inv → SafeFor k s

/-! ### Operands beyond the range of a rule, the notation, any colour conversion -/

/-- Where a rule states no result for an operand, the operation still runs and writes nothing: `HUE.INIT` past the ring and
`HSV2RGB` above `HUE_MAX` (R180, R101) give a value that the configuration and the operands alone determine and nothing
constrains (DESIGN CHOICE, logs 4, 37); `QDEC.STEP` on equal samples gives no step, R94's "none" (log 29). -/
def Obligations.UnstatedResultsAreFreeValues : Prop :=
  (∀ (c : Cfg) (i : Nat), c.n ≤ i → ∃ h : Nat, ∀ s : State, s.cfg = c →
    exec (.hueInit i) s = .next { s with out := .hue h }) ∧
  (∀ (c : Cfg) (x : PixelHSV), c.hueMax < x.h.toNat → ∃ px : Pixel, ∀ s : State, s.cfg = c →
    exec (.hsv2rgb x) s = .next { s with out := .pixel px }) ∧
  (∀ (s : State) (q : Sample), exec (.qdecStep q q) s = .next { s with out := .step none })

/-- The pseudo-operations of R106 in a program, whatever stands before: each holds the samples of the last `TICK` line; after
`INIT` they are 3 and 0; `PRESS` and `RELEASE` move the button that `IDLE` then holds; a detent ends at 3. That the
four others take 3 and 0 there too, which R106 says of `IDLE` alone, is the model's choice (log 36). -/
def Obligations.PseudoOperationsHoldTheLastSamples : Prop :=
  ∀ (p : List SourceLine) (q : Sample) (b : Bool) (n : Nat),
    ExpandsTo p (.tick q b) [.idle n] (List.replicate n (.tick q b)) ∧
    ExpandsTo p (.tick q b) [.detentUp, .idle n] (tickLines b [1, 0, 2, 3] ++ List.replicate n (.tick 3 b)) ∧
    ExpandsTo p (.tick q b) [.detentDown, .idle n] (tickLines b [2, 0, 1, 3] ++ List.replicate n (.tick 3 b)) ∧
    ExpandsTo p (.tick q b) [.press, .idle n] (.tick q true :: List.replicate n (.tick q true)) ∧
    ExpandsTo p (.tick q b) [.release, .idle n] (.tick q false :: List.replicate n (.tick q false)) ∧
    ExpandsTo p (.tick q b) [.idle n, .release] (List.replicate n (.tick q b) ++ tickLines false [q]) ∧
    ExpandsTo p .init [.idle n] (List.replicate n (.tick 3 false)) ∧
    ExpandsTo p .init [.detentUp] (tickLines false [1, 0, 2, 3]) ∧
    ExpandsTo p .init [.detentDown] (tickLines false [2, 0, 1, 3]) ∧
    ExpandsTo p .init [.press] [.tick 3 true] ∧
    ExpandsTo p .init [.release] [.tick 3 false]

/-- In every configuration that meets R5's constraints `HSV2RGB` has the properties R183 requires of any, the reference
function or a free one (log 3), and what they fix the operation gives: black at V = 0, grey at S = 0 (`c = v` for the
reference), the six colours at the sector starts `k·256` with S = V = 255. -/
def Obligations.EveryValidConversionMeetsItsProperties : Prop :=
  ∀ s : State, s.cfg.valid → HsvLaws s.cfg.hsv2rgb ∧
    (∀ h : Hue, h.toNat ≤ 1535 →
      (∀ sat : Byte, exec (.hsv2rgb ⟨h, sat, 0⟩) s = .next { s with out := .pixel ⟨0, 0, 0⟩ }) ∧
      (∀ v : Byte, ∃ c : Byte, exec (.hsv2rgb ⟨h, 0, v⟩) s = .next { s with out := .pixel ⟨c, c, c⟩ } ∧
        (s.cfg.hsvFn = .reference → c = v))) ∧
    ∀ p ∈ [((0 : Hue), (⟨255, 0, 0⟩ : Pixel)), (256, ⟨255, 255, 0⟩), (512, ⟨0, 255, 0⟩), (768, ⟨0, 255, 255⟩),
        (1024, ⟨0, 0, 255⟩), (1280, ⟨255, 0, 255⟩)],
      exec (.hsv2rgb ⟨p.1, 255, 255⟩) s = .next { s with out := .pixel p.2 }
end

