-- ==== Sys2Proof/Laws/Decode.lean ====
section
/-!
SUPPORT. What the operand readers of Decode.lean can do: they accept exactly the numbers of their width, and give back
what the encoder wrote.
-/

namespace Sys2Proof

/-- A field read back from its own number. -/
theorem operandBits_bitsOperand {w : Nat} (x : BitVec w) : operandBits w (bitsOperand x) = some x := by
  simp [operandBits, bitsOperand, x.isLt]

/-- A number that a field of `w` bits accepts is the number of what it gives. -/
theorem bitsOperand_of_operandBits {w : Nat} {x : Int} {b : BitVec w} (h : operandBits w x = some b) :
    bitsOperand b = x := by
  unfold operandBits at h
  split at h
  next hx =>
    obtain ⟨h0, h1⟩ := hx
    cases h
    simp [bitsOperand, Nat.mod_eq_of_lt h1, Int.toNat_of_nonneg h0]
  · cases h

/-- The three lines' code is at most 7 and gives the lines back (R91). -/
theorem pinsOfCode_codeOfPins (p : Pins) : pinsOfCode (codeOfPins p) = p := by
  obtain ⟨a, b, n⟩ := p
  cases a <;> cases b <;> cases n <;> rfl

theorem codeOfPins_lt (p : Pins) : codeOfPins p < 8 := by
  obtain ⟨a, b, n⟩ := p
  cases a <;> cases b <;> cases n <;> decide

end Sys2Proof
end

