-- ==== Sys2Proof/Laws/State.lean ====
section
/-!
SUPPORT. One lemma per field per register write of Machine/Ops.lean, each true by definition, so that no later proof
unfolds a record update.
-/

namespace Sys2Proof.Machine

section Writes

variable (s : State)

@[simp] theorem State.setPins_cfg (p : Pins) : (s.setPins p).cfg = s.cfg := rfl
@[simp] theorem State.setPins_enc (p : Pins) : (s.setPins p).enc = s.enc := rfl
@[simp] theorem State.setPins_eng (p : Pins) : (s.setPins p).eng = s.eng := rfl
@[simp] theorem State.setPins_drv (p : Pins) : (s.setPins p).drv = s.drv := rfl
@[simp] theorem State.setPins_pins (p : Pins) : (s.setPins p).pins = p := rfl
@[simp] theorem State.setPins_wire (p : Pins) : (s.setPins p).wire = s.wire := rfl
@[simp] theorem State.setPins_initDone (p : Pins) : (s.setPins p).initDone = s.initDone := rfl
@[simp] theorem State.setPins_queue (p : Pins) : (s.setPins p).queue = s.queue := rfl
@[simp] theorem State.setPins_out (p : Pins) : (s.setPins p).out = s.out := rfl
@[simp] theorem State.setPins_fresh (p : Pins) : (s.setPins p).fresh = s.fresh := rfl

@[simp] theorem State.setIs_cfg (q : Sample) : (s.setIs q).cfg = s.cfg := rfl
@[simp] theorem State.setIs_enc (q : Sample) : (s.setIs q).enc = { s.enc with is := q } := rfl
@[simp] theorem State.setIs_eng (q : Sample) : (s.setIs q).eng = s.eng := rfl
@[simp] theorem State.setIs_drv (q : Sample) : (s.setIs q).drv = s.drv := rfl
@[simp] theorem State.setIs_pins (q : Sample) : (s.setIs q).pins = s.pins := rfl
@[simp] theorem State.setIs_wire (q : Sample) : (s.setIs q).wire = s.wire := rfl
@[simp] theorem State.setIs_initDone (q : Sample) : (s.setIs q).initDone = s.initDone := rfl
@[simp] theorem State.setIs_queue (q : Sample) : (s.setIs q).queue = s.queue := rfl
@[simp] theorem State.setIs_out (q : Sample) : (s.setIs q).out = s.out := rfl
@[simp] theorem State.setIs_fresh (q : Sample) : (s.setIs q).fresh = s.fresh := rfl

@[simp] theorem State.setWas_cfg (q : Sample) : (s.setWas q).cfg = s.cfg := rfl
@[simp] theorem State.setWas_enc (q : Sample) : (s.setWas q).enc = { s.enc with was := q } := rfl
@[simp] theorem State.setWas_eng (q : Sample) : (s.setWas q).eng = s.eng := rfl
@[simp] theorem State.setWas_drv (q : Sample) : (s.setWas q).drv = s.drv := rfl
@[simp] theorem State.setWas_pins (q : Sample) : (s.setWas q).pins = s.pins := rfl
@[simp] theorem State.setWas_wire (q : Sample) : (s.setWas q).wire = s.wire := rfl
@[simp] theorem State.setWas_initDone (q : Sample) : (s.setWas q).initDone = s.initDone := rfl
@[simp] theorem State.setWas_queue (q : Sample) : (s.setWas q).queue = s.queue := rfl
@[simp] theorem State.setWas_out (q : Sample) : (s.setWas q).out = s.out := rfl
@[simp] theorem State.setWas_fresh (q : Sample) : (s.setWas q).fresh = s.fresh := rfl

@[simp] theorem State.setAcc_cfg (a : Int) : (s.setAcc a).cfg = s.cfg := rfl
@[simp] theorem State.setAcc_enc (a : Int) : (s.setAcc a).enc = { s.enc with acc := a } := rfl
@[simp] theorem State.setAcc_eng (a : Int) : (s.setAcc a).eng = s.eng := rfl
@[simp] theorem State.setAcc_drv (a : Int) : (s.setAcc a).drv = s.drv := rfl
@[simp] theorem State.setAcc_pins (a : Int) : (s.setAcc a).pins = s.pins := rfl
@[simp] theorem State.setAcc_wire (a : Int) : (s.setAcc a).wire = s.wire := rfl
@[simp] theorem State.setAcc_initDone (a : Int) : (s.setAcc a).initDone = s.initDone := rfl
@[simp] theorem State.setAcc_queue (a : Int) : (s.setAcc a).queue = s.queue := rfl
@[simp] theorem State.setAcc_out (a : Int) : (s.setAcc a).out = s.out := rfl
@[simp] theorem State.setAcc_fresh (a : Int) : (s.setAcc a).fresh = s.fresh := rfl

@[simp] theorem State.setButtonNow_cfg (b : Bool) : (s.setButtonNow b).cfg = s.cfg := rfl
@[simp] theorem State.setButtonNow_enc (b : Bool) : (s.setButtonNow b).enc = { s.enc with buttonNow := b } := rfl
@[simp] theorem State.setButtonNow_eng (b : Bool) : (s.setButtonNow b).eng = s.eng := rfl
@[simp] theorem State.setButtonNow_drv (b : Bool) : (s.setButtonNow b).drv = s.drv := rfl
@[simp] theorem State.setButtonNow_pins (b : Bool) : (s.setButtonNow b).pins = s.pins := rfl
@[simp] theorem State.setButtonNow_wire (b : Bool) : (s.setButtonNow b).wire = s.wire := rfl
@[simp] theorem State.setButtonNow_initDone (b : Bool) : (s.setButtonNow b).initDone = s.initDone := rfl
@[simp] theorem State.setButtonNow_queue (b : Bool) : (s.setButtonNow b).queue = s.queue := rfl
@[simp] theorem State.setButtonNow_out (b : Bool) : (s.setButtonNow b).out = s.out := rfl
@[simp] theorem State.setButtonNow_fresh (b : Bool) : (s.setButtonNow b).fresh = s.fresh := rfl

@[simp] theorem State.setButtonLast_cfg (b : Bool) : (s.setButtonLast b).cfg = s.cfg := rfl
@[simp] theorem State.setButtonLast_enc (b : Bool) : (s.setButtonLast b).enc = { s.enc with buttonLast := b } := rfl
@[simp] theorem State.setButtonLast_eng (b : Bool) : (s.setButtonLast b).eng = s.eng := rfl
@[simp] theorem State.setButtonLast_drv (b : Bool) : (s.setButtonLast b).drv = s.drv := rfl
@[simp] theorem State.setButtonLast_pins (b : Bool) : (s.setButtonLast b).pins = s.pins := rfl
@[simp] theorem State.setButtonLast_wire (b : Bool) : (s.setButtonLast b).wire = s.wire := rfl
@[simp] theorem State.setButtonLast_initDone (b : Bool) : (s.setButtonLast b).initDone = s.initDone := rfl
@[simp] theorem State.setButtonLast_queue (b : Bool) : (s.setButtonLast b).queue = s.queue := rfl
@[simp] theorem State.setButtonLast_out (b : Bool) : (s.setButtonLast b).out = s.out := rfl
@[simp] theorem State.setButtonLast_fresh (b : Bool) : (s.setButtonLast b).fresh = s.fresh := rfl

@[simp] theorem State.setHighlighted_cfg (i : Nat) : (s.setHighlighted i).cfg = s.cfg := rfl
@[simp] theorem State.setHighlighted_enc (i : Nat) : (s.setHighlighted i).enc = s.enc := rfl
@[simp] theorem State.setHighlighted_eng (i : Nat) : (s.setHighlighted i).eng = { s.eng with highlightedIndex := i } := rfl
@[simp] theorem State.setHighlighted_drv (i : Nat) : (s.setHighlighted i).drv = s.drv := rfl
@[simp] theorem State.setHighlighted_pins (i : Nat) : (s.setHighlighted i).pins = s.pins := rfl
@[simp] theorem State.setHighlighted_wire (i : Nat) : (s.setHighlighted i).wire = s.wire := rfl
@[simp] theorem State.setHighlighted_initDone (i : Nat) : (s.setHighlighted i).initDone = s.initDone := rfl
@[simp] theorem State.setHighlighted_queue (i : Nat) : (s.setHighlighted i).queue = s.queue := rfl
@[simp] theorem State.setHighlighted_out (i : Nat) : (s.setHighlighted i).out = s.out := rfl
@[simp] theorem State.setHighlighted_fresh (i : Nat) : (s.setHighlighted i).fresh = s.fresh := rfl

@[simp] theorem State.setMode_cfg (m : EffectMode) : (s.setMode m).cfg = s.cfg := rfl
@[simp] theorem State.setMode_enc (m : EffectMode) : (s.setMode m).enc = s.enc := rfl
@[simp] theorem State.setMode_eng (m : EffectMode) : (s.setMode m).eng = { s.eng with activeMode := m } := rfl
@[simp] theorem State.setMode_drv (m : EffectMode) : (s.setMode m).drv = s.drv := rfl
@[simp] theorem State.setMode_pins (m : EffectMode) : (s.setMode m).pins = s.pins := rfl
@[simp] theorem State.setMode_wire (m : EffectMode) : (s.setMode m).wire = s.wire := rfl
@[simp] theorem State.setMode_initDone (m : EffectMode) : (s.setMode m).initDone = s.initDone := rfl
@[simp] theorem State.setMode_queue (m : EffectMode) : (s.setMode m).queue = s.queue := rfl
@[simp] theorem State.setMode_out (m : EffectMode) : (s.setMode m).out = s.out := rfl
@[simp] theorem State.setMode_fresh (m : EffectMode) : (s.setMode m).fresh = s.fresh := rfl

@[simp] theorem State.noteRendered_cfg : (s.noteRendered).cfg = s.cfg := rfl
@[simp] theorem State.noteRendered_enc : (s.noteRendered).enc = s.enc := rfl
@[simp] theorem State.noteRendered_eng : (s.noteRendered).eng = { s.eng with lastRenderedValid := true, lastRenderedIndex := s.eng.highlightedIndex } := rfl
@[simp] theorem State.noteRendered_drv : (s.noteRendered).drv = s.drv := rfl
@[simp] theorem State.noteRendered_pins : (s.noteRendered).pins = s.pins := rfl
@[simp] theorem State.noteRendered_wire : (s.noteRendered).wire = s.wire := rfl
@[simp] theorem State.noteRendered_initDone : (s.noteRendered).initDone = s.initDone := rfl
@[simp] theorem State.noteRendered_queue : (s.noteRendered).queue = s.queue := rfl
@[simp] theorem State.noteRendered_out : (s.noteRendered).out = s.out := rfl
@[simp] theorem State.noteRendered_fresh : (s.noteRendered).fresh = s.fresh := rfl

@[simp] theorem State.setFrameHSV_cfg (f : List PixelHSV) : (s.setFrameHSV f).cfg = s.cfg := rfl
@[simp] theorem State.setFrameHSV_enc (f : List PixelHSV) : (s.setFrameHSV f).enc = s.enc := rfl
@[simp] theorem State.setFrameHSV_eng (f : List PixelHSV) : (s.setFrameHSV f).eng = { s.eng with frameHSV := f } := rfl
@[simp] theorem State.setFrameHSV_drv (f : List PixelHSV) : (s.setFrameHSV f).drv = s.drv := rfl
@[simp] theorem State.setFrameHSV_pins (f : List PixelHSV) : (s.setFrameHSV f).pins = s.pins := rfl
@[simp] theorem State.setFrameHSV_wire (f : List PixelHSV) : (s.setFrameHSV f).wire = s.wire := rfl
@[simp] theorem State.setFrameHSV_initDone (f : List PixelHSV) : (s.setFrameHSV f).initDone = s.initDone := rfl
@[simp] theorem State.setFrameHSV_queue (f : List PixelHSV) : (s.setFrameHSV f).queue = s.queue := rfl
@[simp] theorem State.setFrameHSV_out (f : List PixelHSV) : (s.setFrameHSV f).out = s.out := rfl
@[simp] theorem State.setFrameHSV_fresh (f : List PixelHSV) : (s.setFrameHSV f).fresh = s.fresh := rfl

@[simp] theorem State.writeV_cfg (i : Nat) (v : Byte) : (s.writeV i v).cfg = s.cfg := rfl
@[simp] theorem State.writeV_enc (i : Nat) (v : Byte) : (s.writeV i v).enc = s.enc := rfl
@[simp] theorem State.writeV_eng (i : Nat) (v : Byte) : (s.writeV i v).eng = { s.eng with frameHSV := s.eng.frameHSV.modify (s.cell i) fun x => { x with v := v } } := rfl
@[simp] theorem State.writeV_drv (i : Nat) (v : Byte) : (s.writeV i v).drv = s.drv := rfl
@[simp] theorem State.writeV_pins (i : Nat) (v : Byte) : (s.writeV i v).pins = s.pins := rfl
@[simp] theorem State.writeV_wire (i : Nat) (v : Byte) : (s.writeV i v).wire = s.wire := rfl
@[simp] theorem State.writeV_initDone (i : Nat) (v : Byte) : (s.writeV i v).initDone = s.initDone := rfl
@[simp] theorem State.writeV_queue (i : Nat) (v : Byte) : (s.writeV i v).queue = s.queue := rfl
@[simp] theorem State.writeV_out (i : Nat) (v : Byte) : (s.writeV i v).out = s.out := rfl
@[simp] theorem State.writeV_fresh (i : Nat) (v : Byte) : (s.writeV i v).fresh = s.fresh := rfl

@[simp] theorem State.emit_cfg (x : Sym) : (s.emit x).cfg = s.cfg := rfl
@[simp] theorem State.emit_enc (x : Sym) : (s.emit x).enc = s.enc := rfl
@[simp] theorem State.emit_eng (x : Sym) : (s.emit x).eng = s.eng := rfl
@[simp] theorem State.emit_drv (x : Sym) : (s.emit x).drv = s.drv := rfl
@[simp] theorem State.emit_pins (x : Sym) : (s.emit x).pins = s.pins := rfl
@[simp] theorem State.emit_wire (x : Sym) : (s.emit x).wire = s.wire ++ [x] := rfl
@[simp] theorem State.emit_initDone (x : Sym) : (s.emit x).initDone = s.initDone := rfl
@[simp] theorem State.emit_queue (x : Sym) : (s.emit x).queue = s.queue := rfl
@[simp] theorem State.emit_out (x : Sym) : (s.emit x).out = s.out := rfl
@[simp] theorem State.emit_fresh (x : Sym) : (s.emit x).fresh = s.fresh := rfl

@[simp] theorem State.emitByte_cfg (b : Byte) : (s.emitByte b).cfg = s.cfg := rfl
@[simp] theorem State.emitByte_enc (b : Byte) : (s.emitByte b).enc = s.enc := rfl
@[simp] theorem State.emitByte_eng (b : Byte) : (s.emitByte b).eng = s.eng := rfl
@[simp] theorem State.emitByte_drv (b : Byte) : (s.emitByte b).drv = (s.drv.load b).shifts 8 := rfl
@[simp] theorem State.emitByte_pins (b : Byte) : (s.emitByte b).pins = s.pins := rfl
@[simp] theorem State.emitByte_wire (b : Byte) : (s.emitByte b).wire = s.wire ++ [.byte b] := rfl
@[simp] theorem State.emitByte_initDone (b : Byte) : (s.emitByte b).initDone = s.initDone := rfl
@[simp] theorem State.emitByte_queue (b : Byte) : (s.emitByte b).queue = s.queue := rfl
@[simp] theorem State.emitByte_out (b : Byte) : (s.emitByte b).out = s.out := rfl
@[simp] theorem State.emitByte_fresh (b : Byte) : (s.emitByte b).fresh = s.fresh := rfl

@[simp] theorem State.emitGap_cfg (us : Nat) : (s.emitGap us).cfg = s.cfg := rfl
@[simp] theorem State.emitGap_enc (us : Nat) : (s.emitGap us).enc = s.enc := rfl
@[simp] theorem State.emitGap_eng (us : Nat) : (s.emitGap us).eng = s.eng := rfl
@[simp] theorem State.emitGap_drv (us : Nat) : (s.emitGap us).drv = { s.drv with pixOut := false } := rfl
@[simp] theorem State.emitGap_pins (us : Nat) : (s.emitGap us).pins = s.pins := rfl
@[simp] theorem State.emitGap_wire (us : Nat) : (s.emitGap us).wire = s.wire ++ [.gap us] := rfl
@[simp] theorem State.emitGap_initDone (us : Nat) : (s.emitGap us).initDone = s.initDone := rfl
@[simp] theorem State.emitGap_queue (us : Nat) : (s.emitGap us).queue = s.queue := rfl
@[simp] theorem State.emitGap_out (us : Nat) : (s.emitGap us).out = s.out := rfl
@[simp] theorem State.emitGap_fresh (us : Nat) : (s.emitGap us).fresh = s.fresh := rfl

@[simp] theorem State.setIrqMask_cfg (m : Bool) : (s.setIrqMask m).cfg = s.cfg := rfl
@[simp] theorem State.setIrqMask_enc (m : Bool) : (s.setIrqMask m).enc = s.enc := rfl
@[simp] theorem State.setIrqMask_eng (m : Bool) : (s.setIrqMask m).eng = s.eng := rfl
@[simp] theorem State.setIrqMask_drv (m : Bool) : (s.setIrqMask m).drv = { s.drv with irqMask := m } := rfl
@[simp] theorem State.setIrqMask_pins (m : Bool) : (s.setIrqMask m).pins = s.pins := rfl
@[simp] theorem State.setIrqMask_wire (m : Bool) : (s.setIrqMask m).wire = s.wire ++ [.mask m] := rfl
@[simp] theorem State.setIrqMask_initDone (m : Bool) : (s.setIrqMask m).initDone = s.initDone := rfl
@[simp] theorem State.setIrqMask_queue (m : Bool) : (s.setIrqMask m).queue = s.queue := rfl
@[simp] theorem State.setIrqMask_out (m : Bool) : (s.setIrqMask m).out = s.out := rfl
@[simp] theorem State.setIrqMask_fresh (m : Bool) : (s.setIrqMask m).fresh = s.fresh := rfl

@[simp] theorem State.setTxPixel_cfg (i : Nat) : (s.setTxPixel i).cfg = s.cfg := rfl
@[simp] theorem State.setTxPixel_enc (i : Nat) : (s.setTxPixel i).enc = s.enc := rfl
@[simp] theorem State.setTxPixel_eng (i : Nat) : (s.setTxPixel i).eng = s.eng := rfl
@[simp] theorem State.setTxPixel_drv (i : Nat) : (s.setTxPixel i).drv = { s.drv with txPixel := i } := rfl
@[simp] theorem State.setTxPixel_pins (i : Nat) : (s.setTxPixel i).pins = s.pins := rfl
@[simp] theorem State.setTxPixel_wire (i : Nat) : (s.setTxPixel i).wire = s.wire := rfl
@[simp] theorem State.setTxPixel_initDone (i : Nat) : (s.setTxPixel i).initDone = s.initDone := rfl
@[simp] theorem State.setTxPixel_queue (i : Nat) : (s.setTxPixel i).queue = s.queue := rfl
@[simp] theorem State.setTxPixel_out (i : Nat) : (s.setTxPixel i).out = s.out := rfl
@[simp] theorem State.setTxPixel_fresh (i : Nat) : (s.setTxPixel i).fresh = s.fresh := rfl

@[simp] theorem State.setTxChan_cfg (c : Channel) : (s.setTxChan c).cfg = s.cfg := rfl
@[simp] theorem State.setTxChan_enc (c : Channel) : (s.setTxChan c).enc = s.enc := rfl
@[simp] theorem State.setTxChan_eng (c : Channel) : (s.setTxChan c).eng = s.eng := rfl
@[simp] theorem State.setTxChan_drv (c : Channel) : (s.setTxChan c).drv = { s.drv with txChan := c } := rfl
@[simp] theorem State.setTxChan_pins (c : Channel) : (s.setTxChan c).pins = s.pins := rfl
@[simp] theorem State.setTxChan_wire (c : Channel) : (s.setTxChan c).wire = s.wire := rfl
@[simp] theorem State.setTxChan_initDone (c : Channel) : (s.setTxChan c).initDone = s.initDone := rfl
@[simp] theorem State.setTxChan_queue (c : Channel) : (s.setTxChan c).queue = s.queue := rfl
@[simp] theorem State.setTxChan_out (c : Channel) : (s.setTxChan c).out = s.out := rfl
@[simp] theorem State.setTxChan_fresh (c : Channel) : (s.setTxChan c).fresh = s.fresh := rfl

@[simp] theorem State.setTxBit_cfg (k : Nat) : (s.setTxBit k).cfg = s.cfg := rfl
@[simp] theorem State.setTxBit_enc (k : Nat) : (s.setTxBit k).enc = s.enc := rfl
@[simp] theorem State.setTxBit_eng (k : Nat) : (s.setTxBit k).eng = s.eng := rfl
@[simp] theorem State.setTxBit_drv (k : Nat) : (s.setTxBit k).drv = { s.drv with txBit := BitVec.ofNat 3 k } := rfl
@[simp] theorem State.setTxBit_pins (k : Nat) : (s.setTxBit k).pins = s.pins := rfl
@[simp] theorem State.setTxBit_wire (k : Nat) : (s.setTxBit k).wire = s.wire := rfl
@[simp] theorem State.setTxBit_initDone (k : Nat) : (s.setTxBit k).initDone = s.initDone := rfl
@[simp] theorem State.setTxBit_queue (k : Nat) : (s.setTxBit k).queue = s.queue := rfl
@[simp] theorem State.setTxBit_out (k : Nat) : (s.setTxBit k).out = s.out := rfl
@[simp] theorem State.setTxBit_fresh (k : Nat) : (s.setTxBit k).fresh = s.fresh := rfl

@[simp] theorem State.endFrame_cfg : (s.endFrame).cfg = s.cfg := rfl
@[simp] theorem State.endFrame_enc : (s.endFrame).enc = s.enc := rfl
@[simp] theorem State.endFrame_eng : (s.endFrame).eng = s.eng := rfl
@[simp] theorem State.endFrame_drv : (s.endFrame).drv = s.drv.forget s.cfg.n s.fresh := rfl
@[simp] theorem State.endFrame_pins : (s.endFrame).pins = s.pins := rfl
@[simp] theorem State.endFrame_wire : (s.endFrame).wire = s.wire := rfl
@[simp] theorem State.endFrame_initDone : (s.endFrame).initDone = s.initDone := rfl
@[simp] theorem State.endFrame_queue : (s.endFrame).queue = s.queue := rfl
@[simp] theorem State.endFrame_out : (s.endFrame).out = s.out := rfl
@[simp] theorem State.endFrame_fresh : (s.endFrame).fresh = s.fresh + 5 := rfl

@[simp] theorem State.returns_cfg (r : OpResult) : (s.returns r).cfg = s.cfg := rfl
@[simp] theorem State.returns_enc (r : OpResult) : (s.returns r).enc = s.enc := rfl
@[simp] theorem State.returns_eng (r : OpResult) : (s.returns r).eng = s.eng := rfl
@[simp] theorem State.returns_drv (r : OpResult) : (s.returns r).drv = s.drv := rfl
@[simp] theorem State.returns_pins (r : OpResult) : (s.returns r).pins = s.pins := rfl
@[simp] theorem State.returns_wire (r : OpResult) : (s.returns r).wire = s.wire := rfl
@[simp] theorem State.returns_initDone (r : OpResult) : (s.returns r).initDone = s.initDone := rfl
@[simp] theorem State.returns_queue (r : OpResult) : (s.returns r).queue = s.queue := rfl
@[simp] theorem State.returns_out (r : OpResult) : (s.returns r).out = r := rfl
@[simp] theorem State.returns_fresh (r : OpResult) : (s.returns r).fresh = s.fresh := rfl

end Writes

end Sys2Proof.Machine
end

