-- ==== Sys2Proof/Laws/Engine.lean ====
section
/-!
SUPPORT. What the engine's operations can do: the fade of one value, of one cell and of the whole frame, the render
functions' lengths, what `RENDER` writes.
-/

namespace Sys2Proof.Machine

/-- On the ring the hue is the sweep's (R180). -/
theorem hueAt_of_lt {c : Cfg} {i : Nat} (h : i < c.n) : c.hueAt i = c.hueInit i := if_pos h

/-- A value never ends below the floor it started at or above (R185, R193). -/
theorem vFloor_le_fadeValue (c : Cfg) (v : Byte) (h : c.vFloor ≤ v) : c.vFloor ≤ fadeValue c v := by
  unfold fadeValue
  split
  · split
    · simp only [BitVec.le_def, BitVec.lt_def, BitVec.toNat_sub] at *
      omega
    · exact BitVec.le_refl _
  · exact h

/-- The decay never raises a value (R185). -/
theorem fadeValue_le (c : Cfg) (v : Byte) : fadeValue c v ≤ v := by
  unfold fadeValue
  split
  · split
    · simp only [BitVec.le_def, BitVec.lt_def, BitVec.toNat_sub] at *
      omega
    · simp only [BitVec.le_def, BitVec.lt_def] at *
      omega
  · exact BitVec.le_refl _

/-- "holds `max(V_FLOOR, V0 − V_DECAY)`" after one decay, for a value at or above the floor (R193). -/
theorem fadeValue_toNat (c : Cfg) (v : Byte) (h : c.vFloor ≤ v) :
    (fadeValue c v).toNat = max c.vFloor.toNat (v.toNat - c.vDecay.toNat) := by
  unfold fadeValue
  split
  · split
    · simp only [BitVec.le_def, BitVec.lt_def, BitVec.toNat_sub] at *
      omega
    · simp only [BitVec.le_def, BitVec.lt_def, BitVec.toNat_sub] at *
      omega
  · simp only [BitVec.le_def, BitVec.lt_def] at *
    omega

/-- `FADE` writes `frameHSV` and nothing else (R36). -/
theorem fade_frame (s : State) : fade s = s.setFrameHSV (fade s).eng.frameHSV := rfl

theorem fade_cfg (s : State) : (fade s).cfg = s.cfg := rfl

@[simp] theorem length_fade (s : State) : (fade s).eng.frameHSV.length = s.eng.frameHSV.length := by
  simp [fade, decayAll]

/-- A cell in range is the list's own entry (R31). -/
theorem readCell_of_lt {s : State} {i : Nat} (hl : s.eng.frameHSV.length = s.cfg.n) (hi : i < s.cfg.n) :
    s.readCell i = s.eng.frameHSV[i]'(hl ▸ hi) := by
  simp [State.readCell, State.cell, Nat.mod_eq_of_lt hi, List.getD_eq_getElem?_getD, hl, hi]

/-- One cell after `FADE` (R185): `H` and `S` as before; `V` bright at the highlighted index, decayed elsewhere. -/
theorem readCell_fade {s : State} {i : Nat} (hl : s.eng.frameHSV.length = s.cfg.n)
    (hh : s.eng.highlightedIndex < s.cfg.n) (hi : i < s.cfg.n) :
    (fade s).readCell i = ⟨(s.readCell i).h, (s.readCell i).s,
      if i = s.eng.highlightedIndex then s.cfg.vBright else fadeValue s.cfg (s.readCell i).v⟩ := by
  rw [readCell_of_lt (s := fade s) (by simpa [fade_cfg] using hl) hi, readCell_of_lt hl hi]
  have hc : (decayAll s).cell s.eng.highlightedIndex = s.eng.highlightedIndex := Nat.mod_eq_of_lt hh
  simp only [fade, State.writeV_eng, hc, List.getElem_modify]
  by_cases h : i = s.eng.highlightedIndex
  · simp [h, decayAll]
  · simp [h, Ne.symm h, decayAll]

/-- Every render function gives exactly N pixels (R61, R67). -/
theorem length_renderSh (s : State) : (renderSh s).length = s.cfg.n := by simp [renderSh]
theorem length_renderPf (s : State) : (renderPf s).length = s.cfg.n := by simp [renderPf]
theorem length_renderFh (s : State) : (renderFh s).length = s.cfg.n := by simp [renderFh]
theorem length_renderSel (s : State) : (renderSel s).length = s.cfg.n := by simp [renderSel]

/-- What `RENDER` can do (R192): skip and change nothing, or give a frame of N pixels and write `eng` alone, where the
mode and the highlighted index stay, the last index is noted, and `frameHSV` is as before or faded. -/
theorem render_cases (s : State) :
    (render s = (none, s) ∧ s.eng.activeMode = .singleHighlight ∧ s.unchangedSinceRender = true) ∨
    ∃ f t, render s = (some f, t.noteRendered) ∧ f.length = s.cfg.n ∧
      ((t = s ∧ s.eng.activeMode ≠ .fadingHighlight) ∨ (t = fade s ∧ s.eng.activeMode = .fadingHighlight)) := by
  unfold render
  split
  next hm =>
    split
    next hu => exact .inl ⟨rfl, hm, hu⟩
    next => exact .inr ⟨_, s, rfl, length_renderSh s, .inl ⟨rfl, by simp [hm]⟩⟩
  next hm => exact .inr ⟨_, s, rfl, length_renderPf s, .inl ⟨rfl, by simp [hm]⟩⟩
  next hm => exact .inr ⟨_, fade s, rfl, length_renderFh (fade s), .inr ⟨rfl, hm⟩⟩
  next hm => exact .inr ⟨_, s, rfl, length_renderSel s, .inl ⟨rfl, by simp [hm]⟩⟩

/-- `RENDER` writes `eng` and nothing else (R36). -/
theorem render_frame (s : State) : (render s).2 = { s with eng := (render s).2.eng } := by
  rcases render_cases s with ⟨h, _⟩ | ⟨f, t, h, _, ⟨rfl, _⟩ | ⟨rfl, _⟩⟩ <;> rw [h] <;> rfl

end Sys2Proof.Machine
end

