-- ==== Sys2Proof/Laws/PerInstr.lean ====
section
/-!
SUPPORT. Facts about every operation as syntax, one lemma per constructor (LAWS.json "per_instruction").
`CodeFits`: the code of an operation that has one fits its format's width, so that no bit of it is lost (R90).
-/

namespace Sys2Proof.Laws.CodeFits

/-- A code fits its format; a name has no code. -/
def fits : OpWord → Bool
  | .coded fmt bits => decide (bits < 2 ^ fmt.width)
  | .named _ _ => true

/-- The operation's encoding is a code that fits its format, or a name. -/
def Statement (i : Instr) : Prop := fits (encode i) = true

theorem qtNop00 : Statement .qtNop00 := rfl
theorem qdecStep01 : Statement .qdecStep01 := rfl
theorem qdecStep02 : Statement .qdecStep02 := rfl
theorem qdecStep03 : Statement .qdecStep03 := rfl
theorem qdecStep10 : Statement .qdecStep10 := rfl
theorem qtNop11 : Statement .qtNop11 := rfl
theorem qdecStep12 : Statement .qdecStep12 := rfl
theorem qdecStep13 : Statement .qdecStep13 := rfl
theorem qdecStep20 : Statement .qdecStep20 := rfl
theorem qdecStep21 : Statement .qdecStep21 := rfl
theorem qtNop22 : Statement .qtNop22 := rfl
theorem qdecStep23 : Statement .qdecStep23 := rfl
theorem qdecStep30 : Statement .qdecStep30 := rfl
theorem qdecStep31 : Statement .qdecStep31 := rfl
theorem qdecStep32 : Statement .qdecStep32 := rfl
theorem qtNop33 : Statement .qtNop33 := rfl
theorem txBit0 : Statement .txBit0 := rfl
theorem txBit1 : Statement .txBit1 := rfl
theorem renderSh : Statement .renderSh := rfl
theorem renderPf : Statement .renderPf := rfl
theorem renderFh : Statement .renderFh := rfl
theorem renderSel : Statement .renderSel := rfl
theorem evRotUp : Statement .evRotUp := rfl
theorem evRotDown : Statement .evRotDown := rfl
theorem evBtnDown : Statement .evBtnDown := rfl
theorem evBtnUp : Statement .evBtnUp := rfl
theorem tick (pins : Pins) : Statement (.tick pins) := by
  obtain ⟨a, b, n⟩ := pins
  cases a <;> cases b <;> cases n <;> rfl
theorem init : Statement .init := rfl
theorem blank : Statement .blank := rfl
theorem txChan (c : Byte) : Statement (.txChan c) := rfl
theorem txPixel (p : Pixel) : Statement (.txPixel p) := rfl
theorem txFrame (f : List Pixel) : Statement (.txFrame f) := rfl
theorem showGap : Statement .showGap := rfl
theorem irqMask : Statement .irqMask := rfl
theorem irqUnmask : Statement .irqUnmask := rfl
theorem qdecSample : Statement .qdecSample := rfl
theorem qdecStep (was is : Sample) : Statement (.qdecStep was is) := rfl
theorem qdecGate (d : Dir) : Statement (.qdecGate d) := by cases d <;> rfl
theorem btnSample : Statement .btnSample := rfl
theorem hueInit (i : Nat) : Statement (.hueInit i) := rfl
theorem hsv2rgb (x : PixelHSV) : Statement (.hsv2rgb x) := rfl
theorem fade : Statement .fade := rfl
theorem render : Statement .render := rfl
theorem modeConfirm : Statement .modeConfirm := rfl
theorem modeDefault : Statement .modeDefault := rfl
theorem reset : Statement .reset := rfl

end Sys2Proof.Laws.CodeFits
end

