-- ==== Sys2Proof/Laws/Serializer.lean ====
section
/-!
SUPPORT. What the serializer's operations can do, each said once: they send bytes (`Sends`), and a frame is the bytes of
its pixels in a bracket.
-/

namespace Sys2Proof.Machine

/-- One shift on the fields (R132). -/
theorem shift_mk (m : Bool) (sr : Byte) (l : BitVec 3) (i : Nat) (c : Channel) (k : BitVec 3) (o : Bool) :
    DriverState.shift ⟨m, sr, l, i, c, k, o⟩ =
      ⟨m, sr <<< 1, if l = 0 then 0 else l - 1, i, c, k, sr.getLsbD 7⟩ := rfl

/-- Eight shifts after a load empty the register and leave the port at the byte's last bit (R132). -/
theorem shifts_load (b : Byte) (d : DriverState) :
    (d.load b).shifts 8 = { d with sr := 0, srLeft := 0, pixOut := b.getLsbD 0 } := by
  have hsr : b <<< 1 <<< 1 <<< 1 <<< 1 <<< 1 <<< 1 <<< 1 <<< 1 = 0 := by revert b; decide
  have hout : (b <<< 1 <<< 1 <<< 1 <<< 1 <<< 1 <<< 1 <<< 1).getLsbD 7 = b.getLsbD 0 := by revert b; decide
  obtain ⟨m, sr, l, i, c, k, o⟩ := d
  simp only [DriverState.load, DriverState.shifts, shift_mk, hsr, hout]
  congr 1

/-- `t` is `s` after the serializer has sent the bytes `l`: they are appended to the trace, the mask bit is as before, and
nothing outside the driver changes. -/
structure Sends (s : State) (l : List Byte) (t : State) : Prop where
  state : t = { s with drv := t.drv, wire := s.wire ++ l.map .byte }
  irqMask : t.drv.irqMask = s.drv.irqMask

theorem Sends.refl (s : State) : Sends s [] s := ⟨by simp, rfl⟩

theorem Sends.trans {s t u : State} {l m : List Byte} (h : Sends s l t) (k : Sends t m u) : Sends s (l ++ m) u := by
  obtain ⟨h1, h2⟩ := h
  obtain ⟨k1, k2⟩ := k
  refine ⟨?_, k2.trans h2⟩
  rw [k1, h1]
  simp

/-- Writing a position sends nothing. -/
theorem Sends.ofDrv (s : State) (d : DriverState) (h : d.irqMask = s.drv.irqMask) : Sends s [] { s with drv := d } :=
  ⟨by simp, h⟩

theorem Sends.cfg_eq {s t : State} {l : List Byte} (h : Sends s l t) : t.cfg = s.cfg := by rw [h.state]

theorem Sends.wire_eq {s t : State} {l : List Byte} (h : Sends s l t) : t.wire = s.wire ++ l.map .byte := by
  rw [h.state]

/-- `TX.BIT` as a whole (R123, R132). -/
theorem txBit_eq (b : Bool) (s : State) :
    txBit b s = { s with
      drv := { s.drv with sr := 0, srLeft := 0, pixOut := (patternOf s.cfg b).getLsbD 0 }
      wire := s.wire ++ [.byte (patternOf s.cfg b)] } := by
  simp [txBit, State.emitByte, State.emit, shifts_load]

theorem txBit_sends (b : Bool) (s : State) : Sends s [patternOf s.cfg b] (txBit b s) := by
  rw [txBit_eq]
  exact ⟨rfl, rfl⟩

theorem setTxBit_sends (k : Nat) (s : State) : Sends s [] (s.setTxBit k) := Sends.ofDrv s _ rfl

theorem setTxChan_sends (c : Channel) (s : State) : Sends s [] (s.setTxChan c) := Sends.ofDrv s _ rfl

theorem setTxPixel_sends (i : Nat) (s : State) : Sends s [] (s.setTxPixel i) := Sends.ofDrv s _ rfl

/-- The bits of one channel, at whatever positions. -/
theorem txBits_sends (c : Byte) (ks : List Nat) (s : State) :
    Sends s (ks.map fun k => patternOf s.cfg (c.getLsbD k))
      (ks.foldl (fun t k => txBit (c.getLsbD k) (t.setTxBit k)) s) := by
  induction ks generalizing s with
  | nil => exact Sends.refl s
  | cons k ks ih =>
    have h := (setTxBit_sends k s).trans (txBit_sends (c.getLsbD k) (s.setTxBit k))
    have := h.trans (ih _)
    simpa [h.cfg_eq] using this

/-- `TX.CHAN` sends the channel's bits, most significant first (R124). -/
theorem txChan_sends (c : Byte) (s : State) : Sends s ((msbFirst c).map (patternOf s.cfg)) (txChan c s) :=
  txBits_sends c [7, 6, 5, 4, 3, 2, 1, 0] s

/-- The wire word's 24 bits from the top are the bits of G, then R, then B (R96). -/
theorem pixelBytes_eq (c : Cfg) (p : Pixel) :
    pixelBytes c p = (msbFirst p.g ++ msbFirst p.r ++ msbFirst p.b).map (patternOf c) := by
  have hr : List.range 24 = [0, 1, 2, 3, 4, 5, 6, 7, 8, 9, 10, 11, 12, 13, 14, 15, 16, 17, 18, 19, 20, 21, 22, 23] := by
    decide
  simp only [pixelBytes, hr, msbFirst, Pixel.wireWord, BitVec.getLsbD_append, List.map_cons, List.map_nil,
    List.cons_append, List.nil_append]
  rfl

/-- `TX.PIXEL` sends format `WP` (R96, R125). -/
theorem txPixel_sends (p : Pixel) (s : State) : Sends s (pixelBytes s.cfg p) (txPixel p s) := by
  have h1 := (setTxChan_sends .g s).trans (txChan_sends p.g _)
  have h2 := (h1.trans (setTxChan_sends .r _)).trans (txChan_sends p.r _)
  have h3 := (h2.trans (setTxChan_sends .b _)).trans (txChan_sends p.b _)
  simpa [pixelBytes_eq, h1.cfg_eq, h2.cfg_eq, txPixel] using h3

/-- The pixel loop of a frame (R126). -/
theorem txPixels_sends (f : List Pixel) (i : Nat) (s : State) : Sends s (frameBytes s.cfg f) (txPixels i f s) := by
  induction f generalizing i s with
  | nil => exact Sends.refl s
  | cons p rest ih =>
    have h := (setTxPixel_sends i s).trans (txPixel_sends p (s.setTxPixel i))
    have := h.trans (ih (i + 1) _)
    simpa [h.cfg_eq, frameBytes, txPixels] using this

/-- The bracket of a frame: masked for the length of the bytes, unmasked after it whatever was before (R126, R127). -/
theorem txBracket_spec (f : List Pixel) (s : State) :
    txBracket f s = { s with
      drv := (txBracket f s).drv
      wire := s.wire ++ .mask true :: (frameBytes s.cfg f).map .byte ++ [.mask false] } ∧
    (txBracket f s).drv.irqMask = false := by
  have h := txPixels_sends f 0 (s.setIrqMask true)
  refine ⟨?_, rfl⟩
  have e := h.state
  unfold txBracket
  rw [e]
  simp [State.setIrqMask, State.emit]

/-- What the operations that end a frame leave: nothing but the driver, the trace and the counter changes, the mask is
off, the line rests low. -/
structure FrameSent (s : State) (syms : List Sym) (t : State) : Prop where
  state : t = { s with drv := t.drv, wire := s.wire ++ syms, fresh := s.fresh + 5 }
  irqMask : t.drv.irqMask = false
  pixOut : t.drv.pixOut = false

theorem FrameSent.wire_eq {s t : State} {l : List Sym} (h : FrameSent s l t) : t.wire = s.wire ++ l := by rw [h.state]
theorem FrameSent.cfg_eq {s t : State} {l : List Sym} (h : FrameSent s l t) : t.cfg = s.cfg := by rw [h.state]
theorem FrameSent.enc_eq {s t : State} {l : List Sym} (h : FrameSent s l t) : t.enc = s.enc := by rw [h.state]
theorem FrameSent.eng_eq {s t : State} {l : List Sym} (h : FrameSent s l t) : t.eng = s.eng := by rw [h.state]
theorem FrameSent.pins_eq {s t : State} {l : List Sym} (h : FrameSent s l t) : t.pins = s.pins := by rw [h.state]
theorem FrameSent.queue_eq {s t : State} {l : List Sym} (h : FrameSent s l t) : t.queue = s.queue := by rw [h.state]
theorem FrameSent.initDone_eq {s t : State} {l : List Sym} (h : FrameSent s l t) : t.initDone = s.initDone := by
  rw [h.state]

/-- `TX.FRAME` (R126): "exactly `Mask(1)`, 24·N `Byte`s, `Mask(0)`, `Gap(GAP_SHOW_US)`, in that order, and nothing
else". -/
theorem txFrame_spec (f : List Pixel) (s : State) : FrameSent s (frameSyms s.cfg f) (txFrame f s) := by
  obtain ⟨h, hm⟩ := txBracket_spec f s
  refine ⟨?_, ?_, rfl⟩
  · unfold txFrame
    rw [h]
    simp [showGap, State.emitGap, State.emit, State.endFrame, frameSyms]
  · simp [txFrame, showGap, DriverState.forget, hm]

/-- `BLANK` (R122). -/
theorem blank_spec (s : State) : FrameSent s (blankSyms s.cfg) (blank s) := by
  obtain ⟨h, hm⟩ := txBracket_spec (List.replicate s.cfg.n Pixel.black) (s.emitGap s.cfg.gapPreUs)
  refine ⟨?_, ?_, rfl⟩
  · unfold blank
    rw [h]
    simp [State.emitGap, State.emit, State.endFrame, blankSyms]
  · simp [blank, DriverState.forget, hm]

/-- A frame's bytes are 24 per pixel (R126, R131). -/
theorem length_frameBytes (c : Cfg) (f : List Pixel) : (frameBytes c f).length = 24 * f.length := by
  induction f with
  | nil => rfl
  | cons p rest ih =>
    simp only [frameBytes, List.flatMap_cons, List.length_append, List.length_cons] at ih ⊢
    simp [pixelBytes]
    omega

end Sys2Proof.Machine
end

