-- ==== Sys2Proof/Laws/Phases.lean ====
section
/-!
SUPPORT. What the small steps inside TRANSMIT can do: one logical bit, one channel, one pixel, one frame, each as the
serializer's own operation at the position it stands at (R28, R237).
-/

namespace Sys2Proof.Machine

/-- A tick that is sending the frame `f`. -/
abbrev MidTick.at (f : List Pixel) (r : RotEvent) (b : BtnEvent) (s : State) : MidTick := ⟨.sending, s, r, b, some f⟩

theorem MidTick.run_add (a b : Nat) (m : MidTick) : MidTick.run (a + b) m = MidTick.run b (MidTick.run a m) := by
  induction a generalizing m with
  | zero => simp [MidTick.run]
  | succ a ih =>
    rw [Nat.succ_add]
    exact ih m.next

/-- One small step of the byte loop. -/
theorem MidTick.next_sending (f : List Pixel) (r : RotEvent) (b : BtnEvent) (s : State) :
    (MidTick.at f r b s).next =
      match (txBit (bitAt f s.drv) s).drv.advance f.length with
      | some d => MidTick.at f r b { txBit (bitAt f s.drv) s with drv := d }
      | none => ⟨.showing, (txBit (bitAt f s.drv) s).setIrqMask false, r, b, some f⟩ := by
  show (match (txBit (bitAt f s.drv) s).drv.advance f.length with | some d => _ | none => _) = _
  cases (txBit (bitAt f s.drv) s).drv.advance f.length <;> rfl

/-- Inside a channel the bit position falls by one (R28). -/
theorem advance_bit (n : Nat) (d : DriverState) (k : Nat) (hk : k + 1 < 8) (h : d.txBit = BitVec.ofNat 3 (k + 1)) :
    d.advance n = some { d with txBit := BitVec.ofNat 3 k } := by
  have h1 : d.txBit ≠ 0 := by
    rw [h]
    intro h0
    have := congrArg BitVec.toNat h0
    simp at this
    omega
  have h2 : d.txBit - 1 = BitVec.ofNat 3 k := by
    rw [h]
    apply BitVec.eq_of_toNat_eq
    rw [BitVec.toNat_sub]
    simp
    omega
  unfold DriverState.advance
  rw [if_pos h1, h2]

/-- After a channel's last bit comes the next channel, or the next pixel (R28). -/
theorem advance_channel (n : Nat) (d : DriverState) (h : d.txBit = 0) :
    d.advance n =
      match d.txChan with
      | .g => some { d with txChan := .r, txBit := 7 }
      | .r => some { d with txChan := .b, txBit := 7 }
      | .b => if d.txPixel + 1 < n then some { d with txPixel := d.txPixel + 1, txChan := .g, txBit := 7 } else none := by
  unfold DriverState.advance
  exact if_neg (by simp [h])

/-- Sending a bit moves no position (R28). -/
theorem txBit_position (x : Bool) (s : State) :
    (txBit x s).drv.txPixel = s.drv.txPixel ∧ (txBit x s).drv.txChan = s.drv.txChan ∧
      (txBit x s).drv.txBit = s.drv.txBit := by
  rw [txBit_eq]
  exact ⟨rfl, rfl, rfl⟩

/-- The bits of a channel at the positions `ks` move neither the pixel nor the channel position. -/
theorem txBits_position (c : Byte) (ks : List Nat) (s : State) :
    (ks.foldl (fun t k => txBit (c.getLsbD k) (t.setTxBit k)) s).drv.txPixel = s.drv.txPixel ∧
    (ks.foldl (fun t k => txBit (c.getLsbD k) (t.setTxBit k)) s).drv.txChan = s.drv.txChan := by
  induction ks generalizing s with
  | nil => exact ⟨rfl, rfl⟩
  | cons k ks ih =>
    have h := ih (txBit (c.getLsbD k) (s.setTxBit k))
    rw [(txBit_position _ _).1, (txBit_position _ _).2.1] at h
    exact h

theorem txChan_position (c : Byte) (s : State) : (txChan c s).drv.txPixel = s.drv.txPixel :=
  (txBits_position c [7, 6, 5, 4, 3, 2, 1, 0] s).1

/-- A bit that is not its channel's last. -/
theorem MidTick.next_bit (f : List Pixel) (r : RotEvent) (b : BtnEvent) (s : State) (p : Pixel)
    (hp : f.getD s.drv.txPixel Pixel.black = p) (k : Nat) (hk : k + 1 < 8) :
    (MidTick.at f r b (s.setTxBit (k + 1))).next =
      MidTick.at f r b
        ((txBit ((p.channel s.drv.txChan).getLsbD (k + 1)) (s.setTxBit (k + 1))).setTxBit k) := by
  have hb : bitAt f (s.setTxBit (k + 1)).drv = (p.channel s.drv.txChan).getLsbD (k + 1) := by
    show ((f.getD s.drv.txPixel Pixel.black).channel s.drv.txChan).getLsbD (BitVec.ofNat 3 (k + 1)).toNat = _
    rw [hp, BitVec.toNat_ofNat, Nat.mod_eq_of_lt (by omega)]
  rw [MidTick.next_sending, hb, advance_bit _ _ k hk (txBit_position _ _).2.2]
  rfl

/-- Where the byte loop stands after the last bit of a channel of pixel `n`, the state being `t`. -/
def MidTick.afterChannel (n : Nat) (f : List Pixel) (r : RotEvent) (b : BtnEvent) (t : State) : Channel → MidTick
  | .g => MidTick.at f r b ((t.setTxChan .r).setTxBit 7)
  | .r => MidTick.at f r b ((t.setTxChan .b).setTxBit 7)
  | .b =>
    if n + 1 < f.length then MidTick.at f r b (((t.setTxPixel (n + 1)).setTxChan .g).setTxBit 7)
    else ⟨.showing, t.setIrqMask false, r, b, some f⟩

theorem MidTick.afterChannel_g (n : Nat) (f : List Pixel) (r : RotEvent) (b : BtnEvent) (t : State) :
    MidTick.afterChannel n f r b t .g = MidTick.at f r b ((t.setTxChan .r).setTxBit 7) := rfl

theorem MidTick.afterChannel_r (n : Nat) (f : List Pixel) (r : RotEvent) (b : BtnEvent) (t : State) :
    MidTick.afterChannel n f r b t .r = MidTick.at f r b ((t.setTxChan .b).setTxBit 7) := rfl

/-- The last bit of a channel. -/
theorem MidTick.next_lastBit (f : List Pixel) (r : RotEvent) (b : BtnEvent) (s : State) (p : Pixel)
    (hp : f.getD s.drv.txPixel Pixel.black = p) :
    (MidTick.at f r b (s.setTxBit 0)).next =
      MidTick.afterChannel s.drv.txPixel f r b (txBit ((p.channel s.drv.txChan).getLsbD 0) (s.setTxBit 0))
        s.drv.txChan := by
  have hb : bitAt f (s.setTxBit 0).drv = (p.channel s.drv.txChan).getLsbD 0 := by
    show ((f.getD s.drv.txPixel Pixel.black).channel s.drv.txChan).getLsbD (BitVec.ofNat 3 0).toNat = _
    rw [hp]
    rfl
  have hpos := txBit_position ((p.channel s.drv.txChan).getLsbD 0) (s.setTxBit 0)
  rw [MidTick.next_sending, hb, advance_channel _ _ hpos.2.2]
  generalize txBit ((p.channel s.drv.txChan).getLsbD 0) (s.setTxBit 0) = t at hpos
  have h1 : t.drv.txPixel = s.drv.txPixel := hpos.1
  have h2 : t.drv.txChan = s.drv.txChan := hpos.2.1
  rw [← h1, ← h2]
  cases t.drv.txChan
  · rfl
  · rfl
  · dsimp only [MidTick.afterChannel]
    by_cases h : t.drv.txPixel + 1 < f.length
    · rw [if_pos h, if_pos h]
      rfl
    · rw [if_neg h, if_neg h]

/-- One channel: `TX.CHAN` in eight small steps (R124). -/
theorem MidTick.run_channel (f : List Pixel) (r : RotEvent) (b : BtnEvent) (s : State) (c : Channel) (p : Pixel)
    (hp : f.getD s.drv.txPixel Pixel.black = p) (hc : s.drv.txChan = c) :
    MidTick.run 8 (MidTick.at f r b (s.setTxBit 7)) =
      MidTick.afterChannel s.drv.txPixel f r b (txChan (p.channel c) s) c := by
  subst hc
  have hbit : ∀ (ks : List Nat) (k : Nat), k + 1 < 8 →
      (MidTick.at f r b
        ((ks.foldl (fun t k => txBit ((p.channel s.drv.txChan).getLsbD k) (t.setTxBit k)) s).setTxBit (k + 1))).next =
      MidTick.at f r b
        (((ks ++ [k + 1]).foldl (fun t k => txBit ((p.channel s.drv.txChan).getLsbD k) (t.setTxBit k)) s).setTxBit k)
      := by
    intro ks k hk
    have hu := txBits_position (p.channel s.drv.txChan) ks s
    have h := MidTick.next_bit f r b _ p (hu.1.symm ▸ hp) k hk
    rw [hu.2] at h
    rw [h]
    simp only [List.foldl_append, List.foldl_cons, List.foldl_nil]
  have hu := txBits_position (p.channel s.drv.txChan) [7, 6, 5, 4, 3, 2, 1] s
  have hlast := MidTick.next_lastBit f r b _ p (hu.1.symm ▸ hp)
  rw [hu.1, hu.2] at hlast
  have h7 := hbit [] 6 (by omega)
  rw [List.foldl_nil] at h7
  simp only [MidTick.run]
  rw [h7, hbit _ 5 (by omega), hbit _ 4 (by omega), hbit _ 3 (by omega), hbit _ 2 (by omega), hbit _ 1 (by omega),
    hbit _ 0 (by omega)]
  exact hlast

/-- One pixel: `TX.PIXEL` in 24 small steps (R125). -/
theorem MidTick.run_pixel (f : List Pixel) (r : RotEvent) (b : BtnEvent) (s : State) (i : Nat) (p : Pixel)
    (hp : f.getD i Pixel.black = p) :
    MidTick.run 24 (MidTick.at f r b (((s.setTxPixel i).setTxChan .g).setTxBit 7)) =
      if i + 1 < f.length then
        MidTick.at f r b ((((txPixel p (s.setTxPixel i)).setTxPixel (i + 1)).setTxChan .g).setTxBit 7)
      else ⟨.showing, (txPixel p (s.setTxPixel i)).setIrqMask false, r, b, some f⟩ := by
  generalize hs0 : (s.setTxPixel i).setTxChan .g = s0
  have c0 : s0.drv.txChan = .g := by rw [← hs0]; rfl
  have i0 : s0.drv.txPixel = i := by rw [← hs0]; rfl
  rw [MidTick.run_add 8 16, MidTick.run_channel f r b s0 .g p (by rw [i0]; exact hp) c0, MidTick.afterChannel_g]
  generalize hs1 : (txChan (p.channel .g) s0).setTxChan .r = s1
  have c1 : s1.drv.txChan = .r := by rw [← hs1]; rfl
  have i1 : s1.drv.txPixel = i := by
    rw [← hs1]
    simp only [State.setTxChan_drv]
    rw [txChan_position, i0]
  rw [MidTick.run_add 8 8, MidTick.run_channel f r b s1 .r p (by rw [i1]; exact hp) c1, MidTick.afterChannel_r]
  generalize hs2 : (txChan (p.channel .r) s1).setTxChan .b = s2
  have c2 : s2.drv.txChan = .b := by rw [← hs2]; rfl
  have i2 : s2.drv.txPixel = i := by
    rw [← hs2]
    simp only [State.setTxChan_drv]
    rw [txChan_position, i1]
  rw [MidTick.run_channel f r b s2 .b p (by rw [i2]; exact hp) c2, i2]
  have : txChan (p.channel .b) s2 = txPixel p (s.setTxPixel i) := by
    rw [← hs2, ← hs1, ← hs0]
    rfl
  rw [this]
  rfl

/-- The rest of a frame from pixel `i` on (R126). -/
theorem MidTick.run_pixels (f : List Pixel) (r : RotEvent) (b : BtnEvent) (rest : List Pixel) (i : Nat) (s : State)
    (hd : f.drop i = rest) (hn : rest ≠ []) :
    MidTick.run (24 * rest.length) (MidTick.at f r b (((s.setTxPixel i).setTxChan .g).setTxBit 7)) =
      ⟨.showing, (txPixels i rest s).setIrqMask false, r, b, some f⟩ := by
  induction rest generalizing i s with
  | nil => exact absurd rfl hn
  | cons p rest ih =>
    have hp : f.getD i Pixel.black = p := by
      have := congrArg (·[0]?) hd
      simp at this
      simp [List.getD_eq_getElem?_getD, this]
    have hd' : f.drop (i + 1) = rest := by
      rw [← List.drop_drop, hd]
      rfl
    have hlen : rest.length = f.length - (i + 1) := by rw [← hd', List.length_drop]
    rw [List.length_cons, Nat.mul_succ, Nat.add_comm, MidTick.run_add, MidTick.run_pixel f r b s i p hp]
    by_cases hr : rest = []
    · have : ¬ i + 1 < f.length := by
        intro h
        rw [hr] at hlen
        simp at hlen
        omega
      rw [if_neg this, hr]
      rfl
    · have : i + 1 < f.length := by
        have := List.length_pos_iff.2 hr
        omega
      rw [if_pos this, ih (i + 1) _ hd' hr]
      rfl

end Sys2Proof.Machine
end

