-- ==== Sys2Proof/Laws/Quadrature.lean ====
section
/-!
SUPPORT. What the decoder's operations can do: the accumulator's wrap and parity, the gate, the absorption of a
transition, the button.
-/

namespace Sys2Proof.Machine

/-- The wrapped accumulator stands in the range of `w` bits (R24, R153). -/
theorem wrapAcc_range (w : Nat) (hw : 1 ≤ w) (x : Int) :
    -(2 : Int) ^ (w - 1) ≤ wrapAcc w x ∧ wrapAcc w x < (2 : Int) ^ (w - 1) := by
  obtain ⟨k, rfl⟩ : ∃ k, w = k + 1 := ⟨w - 1, by omega⟩
  have hp : (0 : Int) < 2 ^ k := by positivity
  have hm : 0 < 2 ^ (k + 1) := by positivity
  have h1 := Int.le_bmod (x := x) (m := 2 ^ (k + 1)) hm
  have h2 := Int.bmod_lt (x := x) (m := 2 ^ (k + 1)) hm
  have e : ((2 ^ (k + 1) : Nat) : Int) = 2 * 2 ^ k := by push_cast; ring
  rw [e] at h1 h2
  simp only [wrapAcc, Nat.add_sub_cancel]
  omega

/-- Wrapping adds a multiple of `2 ^ w` (R153). -/
theorem wrapAcc_congr (w : Nat) (x : Int) : wrapAcc w x % (2 : Int) ^ w = x % (2 : Int) ^ w := by
  have := Int.bmod_emod (x := x) (m := 2 ^ w)
  simpa [wrapAcc] using this

/-- "wrapping at `2^W_ACC` keeps parity because `2^W_ACC` is even" (R24). -/
theorem wrapAcc_parity (w : Nat) (hw : 1 ≤ w) (x : Int) : wrapAcc w x % 2 = x % 2 := by
  have hd : (2 : Int) ∣ 2 ^ w := dvd_pow_self 2 (by omega)
  have := wrapAcc_congr w x
  have h1 := Int.emod_emod_of_dvd (wrapAcc w x) hd
  have h2 := Int.emod_emod_of_dvd x hd
  rw [← h1, this, h2]

/-- Every counted step turns the accumulator's parity over, the wrap included (R153). -/
theorem accEven_gate (w : Nat) (hw : 1 ≤ w) (a : Int) (d : Dir) :
    accEven (wrapAcc w (a + d.toInt)) = !accEven a := by
  have h := wrapAcc_parity w hw (a + d.toInt)
  have e : (a + d.toInt) % 2 = 1 - a % 2 := by cases d <;> simp only [Dir.toInt] <;> omega
  simp only [accEven, h, e]
  rcases Int.emod_two_eq_zero_or_one a with ha | ha <;> rw [ha] <;> rfl

/-- The gate as a whole (R153). -/
theorem qdecGate_eq (d : Dir) (s : State) :
    qdecGate d s =
      (rotEventOf d (accEven (wrapAcc s.cfg.wAcc (s.enc.acc + d.toInt))),
        s.setAcc (wrapAcc s.cfg.wAcc (s.enc.acc + d.toInt))) := rfl

/-- A code with `was = is` writes `enc.is` and nothing else (R150). -/
theorem absorb_same (q : Sample) (s : State) : absorb q q s = (.none, s.setIs q) := by simp [absorb]

/-- An ignored transition is absorbed and nothing else (R150). -/
theorem absorb_ignored {was is : Sample} (h : is ≠ was) (hz : qdecStep was is = .zero) (s : State) :
    absorb was is s = (.none, (s.setIs is).setWas is) := by
  simp [absorb, h, hz, gateStep]

/-- A counted transition is gated and absorbed (R150). -/
theorem absorb_minus {was is : Sample} (h : is ≠ was) (hz : qdecStep was is = .minus) (s : State) :
    absorb was is s = ((qdecGate .minus s).1, ((qdecGate .minus (s.setIs is)).2).setWas is) := by
  simp only [absorb, if_neg h, hz, gateStep]
  rfl

/-- A counted transition is gated and absorbed (R150). -/
theorem absorb_plus {was is : Sample} (h : is ≠ was) (hz : qdecStep was is = .plus) (s : State) :
    absorb was is s = ((qdecGate .plus s).1, ((qdecGate .plus (s.setIs is)).2).setWas is) := by
  simp only [absorb, if_neg h, hz, gateStep]
  rfl

/-- The decoder writes `enc` and nothing else (R36). -/
theorem absorb_frame (was is : Sample) (s : State) : (absorb was is s).2 = { s with enc := (absorb was is s).2.enc } := by
  unfold absorb
  split
  · rfl
  · cases qdecStep was is <;> rfl

/-- After a sample is absorbed `enc.is` holds it (R23). -/
theorem absorb_is (was is : Sample) (s : State) : (absorb was is s).2.enc.is = is := by
  unfold absorb
  split
  · rfl
  · cases qdecStep was is <;> rfl

/-- After a sample is absorbed from `enc.was`, `enc.was` holds it (R22, R23). -/
theorem absorb_was (is : Sample) (s : State) : (absorb s.enc.was is s).2.enc.was = is := by
  unfold absorb
  split
  next h => exact h.symm
  next => cases qdecStep s.enc.was is <;> rfl

/-- The rotation decoder never touches the button's registers (R157). -/
theorem absorb_button (was is : Sample) (s : State) :
    (absorb was is s).2.enc.buttonNow = s.enc.buttonNow ∧ (absorb was is s).2.enc.buttonLast = s.enc.buttonLast := by
  unfold absorb
  split
  · exact ⟨rfl, rfl⟩
  · cases qdecStep was is <;> exact ⟨rfl, rfl⟩

/-- The accumulator is unchanged or wrapped (R150, R153). -/
theorem absorb_acc (was is : Sample) (s : State) :
    (absorb was is s).2.enc.acc = s.enc.acc ∨ ∃ x, (absorb was is s).2.enc.acc = wrapAcc s.cfg.wAcc x := by
  unfold absorb
  split
  · exact .inl rfl
  · cases qdecStep was is
    · exact .inr ⟨_, rfl⟩
    · exact .inl rfl
    · exact .inr ⟨_, rfl⟩

theorem qdecSample_frame (s : State) : (qdecSample s).2 = { s with enc := (qdecSample s).2.enc } := absorb_frame _ _ s

/-- The button's half of the decoder (R155). -/
theorem btnSample_same {s : State} (h : s.pins.pressed = s.enc.buttonLast) :
    btnSample s = (.none, s.setButtonNow s.pins.pressed) := by simp [btnSample, State.readPins, h]

/-- A change of the button (R155). -/
theorem btnSample_edge {s : State} (h : s.pins.pressed ≠ s.enc.buttonLast) :
    btnSample s = (edgeEvent s.pins.pressed, (s.setButtonNow s.pins.pressed).setButtonLast s.pins.pressed) := by
  simp [btnSample, State.readPins, h]

/-- What `BTN.SAMPLE` leaves, whatever the sample: both registers hold it and nothing else has changed (R25, R155). -/
theorem btnSample_state (s : State) :
    (btnSample s).2 = { s with
      enc := { s.enc with buttonNow := s.pins.pressed, buttonLast := s.pins.pressed } } := by
  by_cases h : s.pins.pressed = s.enc.buttonLast
  · rw [btnSample_same h]
    simp [State.setButtonNow, h]
  · rw [btnSample_edge h]
    rfl

end Sys2Proof.Machine
end

