-- ==== Sys2Proof/Laws/Routing.lean ====
section
/-!
SUPPORT. What the dispatcher's operations can do (R220 to R226): the rotate events write the index, the button events the
mode, and nothing else.
-/

namespace Sys2Proof.Machine

theorem wrapinc_lt {n i : Nat} (h : i < n) : wrapinc n i < n := by unfold wrapinc; split <;> omega

theorem wrapdec_lt {n i : Nat} (h : i < n) : wrapdec n i < n := by unfold wrapdec; split <;> omega

/-- The two wraps undo each other (R64). -/
theorem wrapdec_wrapinc (n i : Nat) : wrapdec n (wrapinc n i) = i := by
  simp only [wrapinc, wrapdec]
  split
  · simp only [if_true]
    omega
  · simp

theorem wrapinc_wrapdec {n i : Nat} (h : i < n) : wrapinc n (wrapdec n i) = i := by
  simp only [wrapinc, wrapdec]
  by_cases hi : i = 0
  · simp [hi]
  · have : i - 1 ≠ n - 1 := by omega
    simp only [hi, if_false, this]
    omega

/-- What routing can do to the index. -/
theorem routeRot_eq (r : RotEvent) (s : State) : routeRot r s = s.setHighlighted (routeRot r s).eng.highlightedIndex := by
  cases r <;> rfl

theorem routeRot_lt {r : RotEvent} {s : State} (h : s.eng.highlightedIndex < s.cfg.n) :
    (routeRot r s).eng.highlightedIndex < s.cfg.n := by
  cases r
  · exact h
  · exact wrapinc_lt h
  · exact wrapdec_lt h

/-- What routing can do to the mode: only the two modes a button edge leads to (R35). -/
theorem routeBtn_eq (b : BtnEvent) (s : State) : routeBtn b s = s.setMode (routeBtn b s).eng.activeMode := by
  cases b <;> rfl

/-- Routing writes the index and the mode and nothing else (R226). -/
theorem route_eq (r : RotEvent) (b : BtnEvent) (s : State) :
    route r b s = (s.setHighlighted (routeRot r s).eng.highlightedIndex).setMode (route r b s).eng.activeMode := by
  cases r <;> cases b <;> rfl

theorem route_index (r : RotEvent) (b : BtnEvent) (s : State) :
    (route r b s).eng.highlightedIndex = (routeRot r s).eng.highlightedIndex := by
  cases r <;> cases b <;> rfl

end Sys2Proof.Machine
end

