-- ==== Sys2Proof/Laws/Sequencer.lean ====
section
/-!
SUPPORT. What a tick and a step can do, each said once: the half of a tick before `RENDER` writes `enc` and two fields of
`eng`; the tick ends in a skip or in one frame.
-/

namespace Sys2Proof.Machine

/-- SAMPLE writes `enc` and nothing else, and leaves both samples absorbed (R46 (5), (6)). -/
theorem samplePhase_spec (s : State) :
    (samplePhase s).2.2 = { s with enc := (samplePhase s).2.2.enc } ∧
    (samplePhase s).2.2.enc.is = (samplePhase s).2.2.enc.was ∧
    (samplePhase s).2.2.enc.buttonNow = (samplePhase s).2.2.enc.buttonLast := by
  have hf := qdecSample_frame s
  have hi := absorb_is s.enc.was s.readPins.sample s
  have hw := absorb_was s.readPins.sample s
  simp only [samplePhase, btnSample_state]
  refine ⟨?_, hi.trans hw.symm, trivial⟩
  rw [hf]

/-- The half of a tick before `RENDER` writes `enc`, the index and the mode, and nothing else (R36). -/
theorem sampleAndRoute_frame (s : State) :
    sampleAndRoute s = { s with
      enc := (sampleAndRoute s).enc
      eng := { s.eng with
        highlightedIndex := (sampleAndRoute s).eng.highlightedIndex
        activeMode := (sampleAndRoute s).eng.activeMode } } := by
  have h := (samplePhase_spec s).1
  simp only [sampleAndRoute]
  rw [route_eq, h]
  rfl

/-- What a tick can do after its sampling and routing (R235): a skip changes nothing more; otherwise `RENDER` writes `eng`
and one frame is sent. -/
theorem tick_cases (p : Pins) (s : State) :
    (tick p s = sampleAndRoute (s.setPins p) ∧ (render (sampleAndRoute (s.setPins p))).1 = none) ∨
    ∃ f e, render (sampleAndRoute (s.setPins p)) = (some f, { sampleAndRoute (s.setPins p) with eng := e }) ∧
      f.length = s.cfg.n ∧ tick p s = txFrame f { sampleAndRoute (s.setPins p) with eng := e } := by
  have hc : (sampleAndRoute (s.setPins p)).cfg = s.cfg := by rw [sampleAndRoute_frame]; rfl
  have hr := render_frame (sampleAndRoute (s.setPins p))
  rcases render_cases (sampleAndRoute (s.setPins p)) with ⟨h, _⟩ | ⟨f, t, h, hl, _⟩
  · exact .inl ⟨by simp [tick, h, transmit], by rw [h]⟩
  · rw [h] at hr
    refine .inr ⟨f, t.noteRendered.eng, h.trans (congrArg (Prod.mk (some f)) hr), by rw [hl, hc], ?_⟩
    unfold tick
    rw [h]
    exact congrArg (txFrame f) hr

/-- A tick leaves the configuration, the queue and the boot bit, and puts its pin word on the lines. -/
theorem tick_carried (p : Pins) (s : State) :
    (tick p s).cfg = s.cfg ∧ (tick p s).queue = s.queue ∧ (tick p s).initDone = s.initDone ∧ (tick p s).pins = p := by
  rcases tick_cases p s with ⟨h, _⟩ | ⟨f, e, _, _, h⟩
  · rw [h, sampleAndRoute_frame]
    exact ⟨rfl, rfl, rfl, rfl⟩
  · have hf := txFrame_spec f { sampleAndRoute (s.setPins p) with eng := e }
    rw [h, hf.cfg_eq, hf.queue_eq, hf.initDone_eq, hf.pins_eq, sampleAndRoute_frame]
    exact ⟨rfl, rfl, rfl, rfl⟩

/-- A step with something queued runs the head (log 9). -/
theorem step_cons {s : State} {w : OpWord} {rest : List OpWord} (h : s.queue = w :: rest) :
    step s = runWord w { s with queue := rest } := by simp [step, h]

/-- A step with nothing queued lives on (R239). -/
theorem step_nil {s : State} (h : s.queue = []) : step s = runLoop s := by simp [step, h]

end Sys2Proof.Machine
end

