-- ==== Sys2Proof/Laws/Stimulus.lean ====
section
/-!
SUPPORT. What the expansion of a program can do: it goes line by line, and the last samples after a program are those its
lines leave (R106).
-/

namespace Sys2Proof.Machine

/-- The last samples after two runs of lines. -/
theorem LastSamples.lines_append (m : LastSamples) (a b : List Line) : m.lines (a ++ b) = (m.lines a).lines b :=
  List.foldl_append ..

/-- A program in two parts: the second is expanded with the samples the first leaves. -/
theorem expandFrom_append (m : LastSamples) (a b : List SourceLine) :
    expandFrom m (a ++ b) = expandFrom m a ++ expandFrom (m.lines (expandFrom m a)) b := by
  induction a generalizing m with
  | nil => rfl
  | cons x a ih => simp only [List.cons_append, expandFrom, ih, LastSamples.lines_append, List.append_assoc]

/-- Ticks of one pair of samples leave that pair, whatever their number, if it is the last one already: `IDLE` does not
change what `IDLE` holds. -/
theorem LastSamples.lines_replicate (n : Nat) (m : LastSamples) :
    m.lines (List.replicate n (.tick m.q m.btn)) = m := by
  induction n with
  | zero => rfl
  | succ n ih => exact ih

end Sys2Proof.Machine
end

