-- ==== Sys2Proof/Tests/Slice0.lean ====
section
/-!
SUPPORT. Tests of one operation each, expected results taken from spec/95_test_vectors.md (V<n>, P<n>) or worked out by
hand from the rule named, and the witnesses that meet the hypotheses of the obligations. A field the spec leaves
unspecified after an operation is compared by no test.
-/

namespace Sys2Proof.Tests

open Sys2Proof.Machine Sys2Proof.Claims

/-- After reset, on a ring of `n` pixels with the default configuration (V130). -/
def fresh (n : Nat) : State := State.resetWith (Cfg.defaultFor n)

/-- `fresh n` with the decoder at `was`, accumulator `acc`, and the lines presenting `q`. -/
def knob (was : Sample) (acc : Int) (q : Sample) : State :=
  { fresh 4 with enc := ⟨was, was, acc, false, false⟩, pins := Pins.ofLogical q false }

/-- `fresh 4` with the last button sample and the line presenting `btn`. -/
def button (last btn : Bool) : State :=
  { fresh 4 with enc := { EncoderState.reset with buttonLast := last }, pins := Pins.ofLogical 3 btn }

/-- A ring whose values are `vs`, with the highlighted index and the mode given. -/
def ring (vs : List Byte) (hi : Nat) (mode : EffectMode) : State :=
  let s := fresh vs.length
  { s with eng := { s.eng with
      frameHSV := s.eng.frameHSV.zipWith (fun x v => { x with v := v }) vs
      highlightedIndex := hi, activeMode := mode } }

/-- The values of a ring. -/
def values (s : State) : List Byte := s.eng.frameHSV.map PixelHSV.v

/-- The operation runs and what it leaves passes the check. -/
def leaves (i : Instr) (s : State) (check : State → Bool) : Bool :=
  match exec i s with
  | .next t => check t
  | _ => false

/-- Several operations in turn run and what they leave passes the check. -/
def leavesAll (l : List Instr) (s : State) (check : State → Bool) : Bool :=
  match execAll l s with
  | .next t => check t
  | _ => false

/-- The word decodes to the operation. -/
def decodesTo (w : OpWord) (i : Instr) : Bool :=
  match decode w with
  | .ok j => j == i
  | .error _ => false

/-- The word decodes to nothing, for the reason given. -/
def rejects (w : OpWord) (e : DecodeError) : Bool :=
  match decode w with
  | .ok _ => false
  | .error e' => e' == e

/-- `8 bytes` of a channel as symbols, from the letters of the vectors. -/
def bytes (l : List Byte) : List Sym := l.map .byte

/-! ### WellFormed: an ill-formed term for its one check, and operands beyond a rule's range, which run -/

theorem test_wellFormed_refuses_a_frame_of_the_wrong_length :
    (Instr.txFrame [⟨0, 0, 0⟩]).wellFormed (Cfg.defaultFor 2) = false := by decide

theorem test_wellFormed_accepts_a_frame_of_the_ring :
    (Instr.txFrame [⟨0, 0, 0⟩, ⟨1, 2, 3⟩]).wellFormed (Cfg.defaultFor 2) = true := by decide

/-- R126: "A frame of another length than N cannot be passed". -/
theorem test_step_refuses_a_frame_that_cannot_be_passed :
    (match step { fresh 4 with queue := [.named .TX_FRAME [0, 0, 0]] } with
      | .refused r => r == .cannotBePassed (.txFrame [⟨0, 0, 0⟩])
      | _ => false) = true := by decide

/-- Past the ring `HUE.INIT` runs and writes nothing; its hue is free and not compared (log 37). -/
theorem test_step_runs_hueInit_past_the_ring :
    (match step { fresh 4 with queue := [.named .HUE_INIT [4]] } with
      | .next t => t.queue == [] && t.eng == (fresh 4).eng && t.wire == []
      | _ => false) = true := by decide

/-- Above `HUE_MAX` `HSV2RGB` runs and writes nothing; its colour is free and not compared (R101, log 4). -/
theorem test_step_runs_hsv2rgb_above_the_largest_hue :
    (match step { fresh 4 with queue := [.named .HSV2RGB [1536, 255, 255]] } with
      | .next t => t.queue == [] && t.eng == (fresh 4).eng && t.wire == []
      | _ => false) = true := by decide

/-- R94: equal samples select no step. -/
theorem test_step_runs_qdecStep_on_equal_samples :
    (match step { fresh 4 with queue := [.named .QDEC_STEP [2, 2]] } with
      | .next t => t.out == .step none && t.enc == (fresh 4).enc
      | _ => false) = true := by decide

/-! ### The notation of R105 and R106 -/

/-- R106's table read by hand: `RESET`, `INIT`, `IDLE 1`, `PRESS`, `DETENT_UP`, `RELEASE`, `IDLE 2`. -/
theorem test_expandProgram_holds_the_last_samples :
    expandProgram [.line .reset, .line .init, .pseudo (.idle 1), .pseudo .press, .pseudo .detentUp, .pseudo .release,
        .line (.tick 2 false), .pseudo (.idle 2)] =
      [.reset, .init, .tick 3 false, .tick 3 true, .tick 1 true, .tick 0 true, .tick 2 true, .tick 3 true,
        .tick 3 false, .tick 2 false, .tick 2 false, .tick 2 false] := by decide

/-! ### Decode: every constructor by a word written out from the spec's encoding of it -/

/-- R94, the table read row by row: `{was, is}`. -/
theorem test_decode_transition_codes :
    [(0b0000, Instr.qtNop00), (0b0001, .qdecStep01), (0b0010, .qdecStep02), (0b0011, .qdecStep03),
      (0b0100, .qdecStep10), (0b0101, .qtNop11), (0b0110, .qdecStep12), (0b0111, .qdecStep13),
      (0b1000, .qdecStep20), (0b1001, .qdecStep21), (0b1010, .qtNop22), (0b1011, .qdecStep23),
      (0b1100, .qdecStep30), (0b1101, .qdecStep31), (0b1110, .qdecStep32), (0b1111, .qtNop33)].all
      (fun p => decodesTo (.coded .QT p.1) p.2) = true := by decide

/-- R95, R98, R99: the logical bit, the mode tag, the event code. -/
theorem test_decode_bits_tags_events :
    decodesTo (.coded .WB 0) .txBit0 && decodesTo (.coded .WB 1) .txBit1
      && decodesTo (.coded .MT 0b00) .renderSh && decodesTo (.coded .MT 0b01) .renderPf
      && decodesTo (.coded .MT 0b10) .renderFh && decodesTo (.coded .MT 0b11) .renderSel
      && decodesTo (.coded .EV 0b00) .evRotUp && decodesTo (.coded .EV 0b01) .evRotDown
      && decodesTo (.coded .EV 0b10) .evBtnDown && decodesTo (.coded .EV 0b11) .evBtnUp = true := by decide

/-- The pin words of the notation paragraph of spec/95: `q=3 b=0` is 001, `q=3 b=1` is 000, `q=1 b=0` is 101, `q=0 b=0`
is 111, `q=2 b=0` is 011. -/
theorem test_decode_pin_words :
    decodesTo (.coded .IN 0b001) (.tick (Pins.ofLogical 3 false))
      && decodesTo (.coded .IN 0b000) (.tick (Pins.ofLogical 3 true))
      && decodesTo (.coded .IN 0b101) (.tick (Pins.ofLogical 1 false))
      && decodesTo (.coded .IN 0b111) (.tick (Pins.ofLogical 0 false))
      && decodesTo (.coded .IN 0b011) (.tick (Pins.ofLogical 2 false)) = true := by decide

/-- The names, with their operands in the order of their rules. -/
theorem test_decode_names :
    decodesTo (.named .INIT []) .init && decodesTo (.named .BLANK []) .blank
      && decodesTo (.named .TX_CHAN [0xA5]) (.txChan 0xA5)
      && decodesTo (.named .TX_PIXEL [0xFF, 0x3F, 0x00]) (.txPixel ⟨0xFF, 0x3F, 0x00⟩)
      && decodesTo (.named .TX_FRAME [1, 2, 3, 4, 5, 6]) (.txFrame [⟨1, 2, 3⟩, ⟨4, 5, 6⟩])
      && decodesTo (.named .SHOW []) .showGap && decodesTo (.named .IRQ_MASK []) .irqMask
      && decodesTo (.named .IRQ_UNMASK []) .irqUnmask && decodesTo (.named .QDEC_SAMPLE []) .qdecSample
      && decodesTo (.named .QDEC_STEP [2, 3]) (.qdecStep 2 3) && decodesTo (.named .QDEC_GATE [1]) (.qdecGate .plus)
      && decodesTo (.named .QDEC_GATE [-1]) (.qdecGate .minus) && decodesTo (.named .BTN_SAMPLE []) .btnSample
      && decodesTo (.named .HUE_INIT [23]) (.hueInit 23)
      && decodesTo (.named .HSV2RGB [1472, 255, 247]) (.hsv2rgb ⟨1472, 255, 247⟩)
      && decodesTo (.named .FADE []) .fade && decodesTo (.named .RENDER []) .render
      && decodesTo (.named .MODE_CONFIRM []) .modeConfirm && decodesTo (.named .MODE_DEFAULT []) .modeDefault
      && decodesTo (.named .RESET []) .reset = true := by decide

/-- A code wider than its format and operands outside their rule's are no operation. -/
theorem test_decode_rejects_by_name :
    rejects (.coded .QT 16) (.codeTooWide .QT 16) && rejects (.coded .IN 8) (.codeTooWide .IN 8)
      && rejects (.coded .WB 2) (.codeTooWide .WB 2) && rejects (.coded .MT 4) (.codeTooWide .MT 4)
      && rejects (.coded .EV 4) (.codeTooWide .EV 4) && rejects (.named .QDEC_GATE [0]) (.badOperands .QDEC_GATE [0])
      && rejects (.named .TX_CHAN [256]) (.badOperands .TX_CHAN [256])
      && rejects (.named .INIT [24]) (.badOperands .INIT [24])
      && rejects (.named .HUE_INIT [-1]) (.badOperands .HUE_INIT [-1]) = true := by decide

/-! ### QuadratureDecoder -/

/-- V20: was 3, acc 0, q 1: was 1, acc 1, no event. -/
theorem test_qdecSample_first_edge_up :
    leaves .qdecSample (knob 3 0 1) (fun t => t.enc.was == 1 && t.enc.acc == 1 && t.out == .rot .none) = true := by
  decide

/-- V31: was 3, acc −128, q 2: was 2, acc 127 by the wrap, no event. -/
theorem test_qdecSample_wraps_down :
    leaves .qdecSample (knob 3 (-128) 2) (fun t => t.enc.was == 2 && t.enc.acc == 127 && t.out == .rot .none)
      = true := by decide

/-- V24: was = is = 3: nothing changes. -/
theorem test_qtNop33 :
    leaves .qtNop33 (knob 3 5 3) (fun t => t.enc == ⟨3, 3, 5, false, false⟩ && t.out == .rot .none) = true := by decide

/-- V28 and the other two equal pairs: `enc.is` alone is written. -/
theorem test_qtNops_write_only_is :
    leaves .qtNop00 (knob 3 5 0) (fun t => t.enc == ⟨3, 0, 5, false, false⟩)
      && leaves .qtNop11 (knob 3 5 0) (fun t => t.enc == ⟨3, 1, 5, false, false⟩)
      && leaves .qtNop22 (knob 3 5 0) (fun t => t.enc == ⟨3, 2, 5, false, false⟩) = true := by decide

/-- V25, V26, V27, V32 and the other ignored pairs (S1): the sample is absorbed, the accumulator stays. -/
theorem test_ignored_codes_absorb :
    [(Instr.qdecStep01, (0 : Sample), (1 : Sample)), (.qdecStep02, 0, 2), (.qdecStep03, 0, 3), (.qdecStep10, 1, 0),
      (.qdecStep12, 1, 2), (.qdecStep20, 2, 0), (.qdecStep21, 2, 1), (.qdecStep30, 3, 0)].all
      (fun p => leaves p.1 (knob p.2.1 1 p.2.2) fun t => t.enc == ⟨p.2.2, p.2.2, 1, false, false⟩ && t.out == .rot .none)
      = true := by decide

/-- V21: was 2, acc 1, is 3: acc 2, up. -/
theorem test_qdecStep23_emits_up :
    leaves .qdecStep23 (knob 2 1 3) (fun t => t.enc.was == 3 && t.enc.acc == 2 && t.out == .rot .up) = true := by decide

/-- V23: was 1, acc −1, is 3: acc −2 is even, down. -/
theorem test_qdecStep13_emits_down :
    leaves .qdecStep13 (knob 1 (-1) 3) (fun t => t.enc.was == 3 && t.enc.acc == -2 && t.out == .rot .down) = true := by
  decide

/-- V30: was 3, acc 127, is 1: acc −128 is even, up. -/
theorem test_qdecStep31_wraps_up :
    leaves .qdecStep31 (knob 3 127 1) (fun t => t.enc.was == 1 && t.enc.acc == -128 && t.out == .rot .up) = true := by
  decide

/-- V22: was 3, acc 0, is 2: acc −1, no event. -/
theorem test_qdecStep32_odd_is_silent :
    leaves .qdecStep32 (knob 3 0 2) (fun t => t.enc.was == 2 && t.enc.acc == -1 && t.out == .rot .none) = true := by
  decide

/-- S1: the twelve differing pairs. -/
theorem test_qdecStep_table :
    [((0 : Sample), (1 : Sample), Step.zero), (0, 2, .zero), (0, 3, .zero), (1, 0, .zero), (1, 2, .zero), (1, 3, .minus),
      (2, 0, .zero), (2, 1, .zero), (2, 3, .plus), (3, 0, .zero), (3, 1, .plus), (3, 2, .minus)].all
      (fun p => leaves (.qdecStep p.1 p.2.1) (knob 3 0 3) fun t => t.out == .step (some p.2.2)) = true := by decide

/-- R153's example: acc 1, s +1: acc 2, up; V29: acc 1, s −1: acc 0, down. -/
theorem test_qdecGate :
    leaves (.qdecGate .plus) (knob 3 1 3) (fun t => t.enc.acc == 2 && t.out == .rot .up)
      && leaves (.qdecGate .minus) (knob 3 1 3) (fun t => t.enc.acc == 0 && t.out == .rot .down) = true := by decide

/-- V33: pressed. -/
theorem test_btnSample_press :
    leaves .btnSample (button false true)
      (fun t => t.enc.buttonLast && t.enc.buttonNow && t.out == .btn .down) = true := by decide

/-- V35, V36: released; nothing new. -/
theorem test_btnSample_release :
    leaves .btnSample (button true false) (fun t => !t.enc.buttonLast && t.out == .btn .up)
      && leaves .btnSample (button false false) (fun t => !t.enc.buttonLast && t.out == .btn .none) = true := by decide

/-! ### EffectEngine -/

/-- V50, V51, V53. -/
theorem test_hueInit :
    leaves (.hueInit 23) (fresh 24) (fun t => t.out == .hue 1472) && leaves (.hueInit 3) (fresh 4) (fun t => t.out == .hue 1152)
      && leaves (.hueInit 6) (fresh 7) (fun t => t.out == .hue 1316) = true := by decide

/-- V87, V88, V89, V90: partial saturation in sectors 2 and 5, both sides of a boundary. -/
theorem test_hsv2rgb_partial_saturation :
    [(((700 : Hue), (128 : Byte), (200 : Byte)), Pixel.mk 99 200 173), ((1535, 128, 200), ⟨200, 99, 100⟩),
      ((383, 200, 100), ⟨61, 100, 21⟩), ((384, 200, 100), ⟨60, 100, 21⟩)].all
      (fun p => leaves (.hsv2rgb ⟨p.1.1, p.1.2.1, p.1.2.2⟩) (fresh 4) fun t => t.out == .pixel p.2) = true := by decide

/-- V66, V75, V79, V83, V85: the top of the range, sectors 5 and 4, grey, black. -/
theorem test_hsv2rgb_edges :
    [(((1535 : Hue), (255 : Byte), (255 : Byte)), Pixel.mk 255 0 0), ((1472, 255, 255), ⟨255, 0, 63⟩),
      ((1152, 255, 255), ⟨127, 0, 255⟩), ((1000, 0, 77), ⟨77, 77, 77⟩), ((300, 255, 0), ⟨0, 0, 0⟩)].all
      (fun p => leaves (.hsv2rgb ⟨p.1.1, p.1.2.1, p.1.2.2⟩) (fresh 4) fun t => t.out == .pixel p.2) = true := by decide

/-- V103, V104: the clamp at the floor. -/
theorem test_fade_clamps :
    leaves .fade (ring [255, 20, 16] 2 .fadingHighlight) (fun t => values t == [247, 16, 255])
      && leaves .fade (ring [24, 25, 17, 16] 0 .fadingHighlight) (fun t => values t == [255, 17, 16, 16]) = true := by
  decide

/-- V105: a value below the floor is left alone. -/
theorem test_fade_leaves_what_is_below_the_floor :
    leaves .fade (ring [10, 255] 1 .fadingHighlight) (fun t => values t == [10, 255]) = true := by decide

/-- R186's example. -/
theorem test_renderSh :
    leaves .renderSh (ring [16, 16, 16, 16] 2 .singleHighlight)
      (fun t => t.out == .frame [⟨0, 0, 16⟩, ⟨0, 0, 16⟩, ⟨255, 255, 255⟩, ⟨0, 0, 16⟩]) = true := by decide

/-- V113: `FF0000 7FFF00 00FFFF 7F00FF`. -/
theorem test_renderPf :
    leaves .renderPf (ring [16, 16, 16, 16] 1 .paletteFrame)
      (fun t => t.out == .frame [⟨0xFF, 0, 0⟩, ⟨0x7F, 0xFF, 0⟩, ⟨0, 0xFF, 0xFF⟩, ⟨0x7F, 0, 0xFF⟩]) = true := by decide

/-- P7, detent 2, tick 4: `D70000 7BF700 00FFFF 080010`; no `FADE` runs. -/
theorem test_renderFh :
    leaves .renderFh (ring [215, 247, 255, 16] 2 .fadingHighlight) (fun t =>
      t.out == .frame [⟨0xD7, 0, 0⟩, ⟨0x7B, 0xF7, 0⟩, ⟨0, 0xFF, 0xFF⟩, ⟨0x08, 0, 0x10⟩]
        && values t == [215, 247, 255, 16]) = true := by decide

/-- V116: the uniform colour at the floor; nothing forced. -/
theorem test_renderSel :
    leaves .renderSel (ring [255, 16, 16, 16] 1 .selectedHighlightOnly) (fun t =>
      t.out == .frame (List.replicate 4 ⟨0x08, 0x10, 0⟩) && values t == [255, 16, 16, 16]) = true := by decide

/-- V114: `FADE` first, then the frame `FF0000 081000 001010 080010`. -/
theorem test_render_fades_first :
    leaves .render (ring [16, 16, 16, 16] 0 .fadingHighlight) (fun t =>
      t.out == .frame [⟨0xFF, 0, 0⟩, ⟨0x08, 0x10, 0⟩, ⟨0, 0x10, 0x10⟩, ⟨0x08, 0, 0x10⟩]
        && values t == [255, 16, 16, 16] && t.eng.lastRenderedValid && t.eng.lastRenderedIndex == 0) = true := by decide

/-- V110 then V111: the first render shows, the second skips. -/
theorem test_render_skips_in_singleHighlight :
    leavesAll [.render, .render] (ring [16, 16, 16, 16] 2 .singleHighlight)
      (fun t => t.out == .skip && t.eng.lastRenderedIndex == 2) = true := by decide

/-! ### InputDispatcher -/

/-- V120, V121, V123. -/
theorem test_evRotUp :
    leaves .evRotUp (fresh 24) (fun t => t.eng.highlightedIndex == 1)
      && leaves .evRotUp (ring [16, 16, 16] 2 .paletteFrame) (fun t => t.eng.highlightedIndex == 0)
      && leaves .evRotUp (fresh 1) (fun t => t.eng.highlightedIndex == 0) = true := by decide

/-- V122, V123, and R221's example. -/
theorem test_evRotDown :
    leaves .evRotDown (fresh 24) (fun t => t.eng.highlightedIndex == 23)
      && leaves .evRotDown (fresh 1) (fun t => t.eng.highlightedIndex == 0)
      && leaves .evRotDown (ring [16, 16, 16, 16, 16, 16] 5 .fadingHighlight) (fun t => t.eng.highlightedIndex == 4)
      = true := by decide

/-- V124, V126. -/
theorem test_button_events_and_modes :
    leaves .evBtnDown (ring [16] 0 .singleHighlight) (fun t => t.eng.activeMode == .selectedHighlightOnly)
      && leaves .evBtnUp (ring [16] 0 .selectedHighlightOnly) (fun t => t.eng.activeMode == .fadingHighlight)
      && leaves .modeConfirm (ring [16] 0 .paletteFrame) (fun t => t.eng.activeMode == .selectedHighlightOnly)
      && leaves .modeDefault (ring [16] 0 .paletteFrame) (fun t => t.eng.activeMode == .fadingHighlight) = true := by
  decide

/-! ### PixelBitstreamDriver -/

/-- V1, V2. -/
theorem test_txBit :
    leaves .txBit1 (fresh 1) (fun t => t.wire == [.byte 0xF8]) && leaves .txBit0 (fresh 1) (fun t => t.wire == [.byte 0xC0])
      = true := by decide

/-- V7. -/
theorem test_txChan :
    leaves (.txChan 0xA5) (fresh 1)
      (fun t => t.wire == bytes [0xF8, 0xC0, 0xF8, 0xC0, 0xC0, 0xF8, 0xC0, 0xF8]) = true := by decide

/-- V9. -/
theorem test_txPixel :
    leaves (.txPixel ⟨0xFF, 0x3F, 0x00⟩) (fresh 1) (fun t =>
      t.wire == bytes [0xC0, 0xC0, 0xF8, 0xF8, 0xF8, 0xF8, 0xF8, 0xF8] ++ bytes (List.replicate 8 0xF8)
        ++ bytes (List.replicate 8 0xC0)) = true := by decide

/-- V10: the one `F8` is byte 15. -/
theorem test_txPixel_red_is_second :
    leaves (.txPixel ⟨0x01, 0, 0⟩) (fresh 1) (fun t =>
      t.wire == bytes (List.replicate 15 0xC0) ++ [.byte 0xF8] ++ bytes (List.replicate 8 0xC0)) = true := by decide

/-- V13. -/
theorem test_txFrame :
    leaves (.txFrame [⟨0, 0, 0⟩]) (fresh 1) (fun t =>
      t.wire == .mask true :: bytes (List.replicate 24 0xC0) ++ [.mask false, .gap 10] && !t.drv.irqMask) = true := by
  decide

/-- P1, N = 2: `Gap(20), Mask(1), 48 × Byte(C0), Mask(0), Gap(50)`. -/
theorem test_init :
    leaves .init (fresh 2) (fun t =>
      t.wire == .gap 20 :: .mask true :: bytes (List.replicate 48 0xC0) ++ [.mask false, .gap 50]
        && !t.drv.irqMask && t.enc == EncoderState.reset && t.initDone) = true := by decide

/-- V15's shape, N = 1. -/
theorem test_blank :
    leaves .blank (fresh 1) (fun t =>
      t.wire == .gap 20 :: .mask true :: bytes (List.replicate 24 0xC0) ++ [.mask false, .gap 50]) = true := by decide

/-- V16, V17. -/
theorem test_show_and_mask :
    leaves .showGap (fresh 1) (fun t => t.wire == [.gap 10] && !t.drv.pixOut)
      && leaves .irqMask (fresh 1) (fun t => t.wire == [.mask true] && t.drv.irqMask)
      && leavesAll [.irqMask, .irqUnmask] (fresh 1) (fun t => t.wire == [.mask true, .mask false] && !t.drv.irqMask)
      = true := by decide

/-- V19. -/
theorem test_decodeWire_invalid :
    decodeWire (Cfg.defaultFor 1) (List.replicate 23 0xC0) = none
      ∧ decodeWire (Cfg.defaultFor 1) (0xFF :: List.replicate 23 0xC0) = none := by decide

/-! ### The tick and reset -/

/-- V134: both events in one tick (was 1, acc 1, q 3, pressed): the index goes down and the mode switches. -/
theorem test_tick_both_events :
    leaves (.tick (Pins.ofLogical 3 true))
      { ring [255, 16, 16, 16] 0 .fadingHighlight with enc := ⟨1, 1, 1, false, false⟩ }
      (fun t => t.eng.highlightedIndex == 3 && t.eng.activeMode == .selectedHighlightOnly && t.enc.acc == 0
        && values t == [255, 16, 16, 16] && !t.drv.irqMask) = true := by decide

/-- V133, N = 1: a button held on the first tick; the frame is `100000`, 27 symbols. -/
theorem test_tick_first_with_button_held :
    leaves (.tick (Pins.ofLogical 0 true)) (fresh 1) (fun t =>
      t.eng.activeMode == .selectedHighlightOnly && t.wire.length == 27 && ringShows t.cfg t.wire == some [⟨0x10, 0, 0⟩])
      = true := by decide

/-- R280: what `RESET` gives a value, from a state that has been used; R280's example of the hues, N = 4. -/
theorem test_reset :
    leaves .reset { ring [255, 20, 16, 30] 2 .selectedHighlightOnly with enc := ⟨3, 1, 7, true, true⟩, wire := [.gap 1] }
      (fun t => t.enc == ⟨0, 0, 0, false, false⟩ && t.eng.frameHSV.map PixelHSV.h == [0, 384, 768, 1152]
        && values t == [16, 16, 16, 16] && t.eng.highlightedIndex == 0 && t.eng.activeMode == .fadingHighlight
        && !t.eng.lastRenderedValid && t.wire == []) = true := by decide

/-- R239: with nothing placed the first step after reset is `INIT`. -/
theorem test_step_after_reset_is_init :
    (match step (fresh 1) with
      | .next t => t.initDone && t.wire.length == 28
      | _ => false) = true := by decide

/-- An opcode-table word placed by `withFetchWord` runs in the next step. -/
theorem test_withFetchWord_runs :
    (match step ((knob 2 1 3).withFetchWord 8 0b1011) with
      | .next t => t.out == .rot .up && t.queue == []
      | _ => false) = true := by decide

/-! ### Witnesses: a state and operands that meet the hypotheses of each obligation, clause by clause -/

theorem witness_StepRunsTheDecodedOperation :
    (∃ (s : State) (w : OpWord) (rest : List OpWord) (i : Instr),
      s.queue = w :: rest ∧ decode w = .ok i ∧ i.wellFormed s.cfg = true) ∧
    (∃ (s : State) (nbits w : Nat) (i : Instr), decodeTableWord nbits w = some i ∧ i.wellFormed s.cfg = true) :=
  ⟨⟨{ fresh 4 with queue := [.coded .IN 0b001] }, .coded .IN 0b001, [], .tick ⟨false, false, true⟩, rfl, rfl, rfl⟩,
    ⟨fresh 4, 8, 0b1101, .qdecStep31, rfl, rfl⟩⟩

theorem witness_StepRefusesWhatIsNoOperation :
    (∃ (s : State) (w : OpWord) (rest : List OpWord) (e : DecodeError), s.queue = w :: rest ∧ decode w = .error e) ∧
    (∃ (s : State) (w : OpWord) (rest : List OpWord) (f : List Pixel),
      s.queue = w :: rest ∧ decode w = .ok (.txFrame f) ∧ f.length ≠ s.cfg.n) ∧
    (∃ s : State, s.queue ≠ [] ∧ ∀ (w : OpWord) (rest : List OpWord), s.queue = w :: rest →
      ∃ i, decode w = .ok i ∧ ∀ f, i = .txFrame f → f.length = s.cfg.n) :=
  ⟨⟨{ fresh 4 with queue := [.coded .QT 16] }, .coded .QT 16, [], .codeTooWide .QT 16, rfl, rfl⟩,
    ⟨{ fresh 4 with queue := [.named .TX_FRAME [0, 0, 0]] }, .named .TX_FRAME [0, 0, 0], [], [⟨0, 0, 0⟩], rfl, rfl,
      by decide⟩,
    ⟨{ fresh 1 with queue := [.named .TX_FRAME [1, 2, 3]] }, by decide, fun w rest h => by
      cases h
      exact ⟨.txFrame [⟨1, 2, 3⟩], rfl, fun f hf => by cases hf; rfl⟩⟩⟩

theorem witness_UnattendedStepsAreInitThenTicks :
    (∃ s : State, s.queue = [] ∧ s.initDone = false) ∧ (∃ s : State, s.queue = [] ∧ s.initDone = true) :=
  ⟨⟨fresh 4, rfl, rfl⟩, ⟨{ fresh 4 with initDone := true }, rfl, rfl⟩⟩

theorem witness_EncodeInvertsDecode : ∃ (w : OpWord) (i : Instr), decode w = .ok i :=
  ⟨.coded .QT 0b1101, .qdecStep31, rfl⟩

/-- The narrowest accumulator a configuration may have. -/
theorem witness_accumulator_width : ∃ s : State, 1 ≤ s.cfg.wAcc ∧ s.cfg.wAcc = 2 :=
  ⟨{ fresh 4 with cfg := { Cfg.defaultFor 4 with wAcc := 2 } }, by decide, rfl⟩

/-- One sample for each of the four clauses of QdecSampleEffect; the second and the third are the two sides of
`enc.was = 1`. -/
theorem witness_QdecSampleEffect :
    [((3 : Sample), (3 : Sample)), (1, 2), (1, 3), (3, 1)].all (fun p =>
      let s := knob p.1 0 p.2
      decide (1 ≤ s.cfg.wAcc) && decide (p.2.toNat = (!s.pins.encA).toNat * 2 + (!s.pins.encB).toNat)
        && decide (s.enc.was = p.1)) = true := by decide

theorem witness_QdecStepIsTheTable : ∃ was is : Sample, was ≠ is := ⟨3, 2, by decide⟩

theorem witness_EverySecondStepEmits :
    ∃ (s t u : State) (d e : Dir), 1 ≤ s.cfg.wAcc ∧ exec (.qdecGate d) s = .next t ∧ exec (.qdecGate e) t = .next u :=
  ⟨knob 3 127 3, _, _, .plus, .minus, by decide, rfl, rfl⟩

theorem witness_OneDetentOneEvent :
    ∃ s : State, 1 ≤ s.cfg.wAcc ∧ s.enc.was = 3 ∧ s.enc.acc % 2 = 0 := ⟨knob 3 (-128) 3, by decide, rfl, by decide⟩

theorem witness_BtnSampleEffect :
    (∃ s : State, (!s.pins.btn) = s.enc.buttonLast) ∧ (∃ s : State, (!s.pins.btn) ≠ s.enc.buttonLast) :=
  ⟨⟨button true true, rfl⟩, ⟨button false true, by decide⟩⟩

/-- Both ends of the index, and the ring of one pixel. -/
theorem witness_RotateEventsMoveTheIndexModuloN :
    [(ring [16, 16, 16] 0 .fadingHighlight), (ring [16, 16, 16] 2 .fadingHighlight), fresh 1].all
      (fun s => decide (s.eng.highlightedIndex < s.cfg.n)) = true := by decide

theorem witness_EventOrderIsUnobservable :
    (∃ r, r ∈ [Instr.evRotUp, Instr.evRotDown]) ∧ (∃ b, b ∈ [Instr.evBtnDown, Instr.evBtnUp]) :=
  ⟨⟨.evRotDown, by decide⟩, ⟨.evBtnUp, by decide⟩⟩

theorem witness_HueSweepRises : ∃ (c : Cfg) (i j : Nat), c.wf = true ∧ i < j ∧ j < c.n ∧ c.n ≤ 1536 :=
  ⟨Cfg.defaultFor 4, 2, 3, by decide, by decide, by decide, by decide⟩

theorem witness_HueInitIsTheSweep : ∃ (s : State) (i : Nat), i < s.cfg.n ∧ i + 1 = s.cfg.n := ⟨fresh 4, 3, by decide, rfl⟩

/-- The first index past the ring, the first hue above the largest. -/
theorem witness_UnstatedResultsAreFreeValues :
    (∃ (s : State) (c : Cfg) (i : Nat), c.n ≤ i ∧ i = c.n ∧ s.cfg = c) ∧
    (∃ (s : State) (c : Cfg) (x : PixelHSV), c.hueMax < x.h.toNat ∧ x.h.toNat = 1536 ∧ s.cfg = c) :=
  ⟨⟨fresh 4, _, 4, by decide, rfl, rfl⟩, ⟨fresh 4, _, ⟨1536, 0, 0⟩, by decide, rfl, rfl⟩⟩

/-- The last hue, with the reference function. -/
theorem witness_EveryValidConversionMeetsItsProperties :
    ∃ (s : State) (h : Hue), s.cfg.valid ∧ s.cfg.hsvFn = .reference ∧ h.toNat ≤ 1535 ∧ h.toNat = 1535 :=
  ⟨fresh 4, 1535, ⟨by decide, trivial⟩, rfl, by decide, by decide⟩

theorem witness_Hsv2rgbEffect :
    (∃ (s : State) (c : Cfg), s.cfg = c) ∧
    (∃ (s : State) (x : PixelHSV), s.cfg.hsvFn = .reference ∧ x.h.toNat ≤ 1535 ∧ x.h.toNat = 1535) :=
  ⟨⟨fresh 4, _, rfl⟩, ⟨fresh 4, ⟨1535, 255, 255⟩, rfl, by decide, by decide⟩⟩

theorem witness_FadeEffect :
    ∃ s : State, s.eng.frameHSV.length = s.cfg.n ∧ s.eng.highlightedIndex < s.cfg.n ∧ ∃ i, i < s.cfg.n ∧
      i ≠ s.eng.highlightedIndex := ⟨ring [24, 25, 17, 16] 3 .fadingHighlight, by decide, by decide, 0, by decide, by decide⟩

theorem witness_FadeConverges :
    ∃ (s : State) (k : Nat), 1#8 ≤ s.cfg.vDecay ∧ s.eng.frameHSV.length = s.cfg.n ∧ s.eng.highlightedIndex < s.cfg.n ∧
      1 ≤ k ∧ ∃ i, i < s.cfg.n ∧ i ≠ s.eng.highlightedIndex ∧ s.cfg.vFloor ≤ (s.readCell i).v :=
  ⟨ring [255, 16] 1 .fadingHighlight, 30, by decide, by decide, by decide, by decide, 0, by decide, by decide, by decide⟩

theorem witness_RenderOfFixedColours : ∃ s : State, s.cfg.palette.length = s.cfg.n := ⟨fresh 4, by decide⟩

/-- The five cases of `RENDER`. -/
theorem witness_RenderIsSelectedByMode :
    (∃ s : State, s.eng.activeMode = .singleHighlight ∧
      s.eng.lastRenderedValid = true ∧ s.eng.lastRenderedIndex = s.eng.highlightedIndex) ∧
    (∃ s : State, s.eng.activeMode = .singleHighlight ∧
      ¬ (s.eng.lastRenderedValid = true ∧ s.eng.lastRenderedIndex = s.eng.highlightedIndex)) ∧
    (∃ s : State, s.eng.activeMode = .paletteFrame) ∧ (∃ s : State, s.eng.activeMode = .fadingHighlight) ∧
    (∃ s : State, s.eng.activeMode = .selectedHighlightOnly) :=
  ⟨⟨(ring [16, 16] 1 .singleHighlight).noteRendered, rfl, rfl, rfl⟩, ⟨ring [16, 16] 1 .singleHighlight, rfl, by decide⟩,
    ⟨ring [16] 0 .paletteFrame, rfl⟩, ⟨ring [16] 0 .fadingHighlight, rfl⟩, ⟨ring [16] 0 .selectedHighlightOnly, rfl⟩⟩

theorem witness_TxFrameEffect : ∃ (s : State) (f : List Pixel), f.length = s.cfg.n := ⟨fresh 1, [⟨1, 2, 3⟩], rfl⟩

theorem witness_FrameBytePositions :
    ∃ (f : List Pixel) (i j : Nat) (p : Pixel), f[i]? = some p ∧ j < 24 ∧ j = 23 := ⟨[⟨1, 2, 3⟩], 0, 23, _, rfl, by decide, rfl⟩

theorem witness_DecodeWireInvertsTheFrameFormat :
    ∃ c : Cfg, c.patOne ≠ c.patZero ∧ (∃ f : List Pixel, f.length = c.n) ∧ (∃ l : List Byte, l.length ≠ 24 * c.n) ∧
      (∃ l : List Byte, ∃ b ∈ l, b ≠ c.patOne ∧ b ≠ c.patZero) :=
  ⟨Cfg.defaultFor 1, by decide, ⟨[⟨1, 2, 3⟩], rfl⟩, ⟨[0xC0], by decide⟩, ⟨[0xFF], 0xFF, by decide, by decide, by decide⟩⟩

theorem witness_FramesDifferOnTheWire :
    ∃ (c : Cfg) (f g : List Pixel), c.patOne ≠ c.patZero ∧ f.length = c.n ∧ g.length = c.n ∧ f ≠ g :=
  ⟨Cfg.defaultFor 1, [⟨1, 2, 3⟩], [⟨1, 2, 4⟩], by decide, rfl, rfl, by decide⟩

theorem witness_FramesStandInBrackets :
    ∃ s : State, bracketed s.wire = true ∧ (∃ t, exec .init s = .next t) ∧ (∃ t, exec (.txFrame [⟨1, 2, 3⟩]) s = .next t) ∧
      (∃ p t, exec (.tick p) s = .next t) := ⟨fresh 1, by decide, ⟨_, rfl⟩, ⟨_, rfl⟩, ⟨⟨true, true, true⟩, _, rfl⟩⟩

theorem witness_RingShowsTheLastFrame :
    ∃ (s : State) (f : List Pixel), s.cfg.patOne ≠ s.cfg.patZero ∧ (∃ t, exec .init s = .next t) ∧ f.length = s.cfg.n ∧
      ∃ t, exec (.txFrame f) s = .next t := ⟨fresh 1, [⟨1, 2, 3⟩], by decide, ⟨_, rfl⟩, rfl, ⟨_, rfl⟩⟩

theorem witness_TickRefinesToItsPhases : ∃ s : State, 1 ≤ s.cfg.n := ⟨fresh 1, by decide⟩

/-- The button held and not held, in FadingHighlight. -/
theorem witness_FirstTickAfterReset :
    ∃ (s : State) (k : Nat), s.cfg.wf = true ∧ s.enc = EncoderState.reset ∧ s.eng = EngineState.reset s.cfg k ∧
      s.cfg.resetMode = .fadingHighlight ∧ (∃ p : Pins, p.btn = false) ∧ (∃ p : Pins, p.btn = true) :=
  ⟨fresh 4, 0, by decide, rfl, rfl, rfl, ⟨⟨true, true, false⟩, rfl⟩, ⟨⟨true, true, true⟩, rfl⟩⟩

theorem witness_OneDetentMovesTheHighlight :
    ∃ s : State, 1 ≤ s.cfg.wAcc ∧ s.eng.highlightedIndex < s.cfg.n ∧ s.enc.was = 3 ∧ s.enc.acc % 2 = 0 :=
  ⟨knob 3 (-128) 3, by decide, by decide, rfl, by decide⟩

theorem witness_NoWayBackToTheResetOnlyModes : ∃ (i : Instr) (s t : State), i ≠ .reset ∧ exec i s = .next t :=
  ⟨.evBtnUp, ring [16] 0 .singleHighlight, _, by decide, rfl⟩

theorem witness_WriteOwnership : ∃ (i : Instr) (s t : State), exec i s = .next t := ⟨.fade, fresh 4, _, rfl⟩

theorem witness_IndexMovesAtMostOnePerTick :
    ∃ (s t : State) (p : Pins), s.eng.highlightedIndex < s.cfg.n ∧ exec (.tick p) s = .next t :=
  ⟨fresh 1, _, ⟨true, true, true⟩, by decide, rfl⟩

/-- A state of the invariant's shape, checked field by field. -/
theorem fresh_shape : (fresh 2).Shape :=
  ⟨⟨by decide, trivial⟩, by decide, by decide, by decide, by decide, by decide, by decide, by decide⟩

theorem witness_EveryOperationKeepsShape : ∃ (i : Instr) (s t : State), s.Shape ∧ exec i s = .next t :=
  ⟨.render, fresh 2, _, fresh_shape, rfl⟩

theorem witness_InvariantHoldsAtReset : ∃ c : Cfg, c.valid := ⟨Cfg.defaultFor 2, by decide, trivial⟩

/-- A state that meets the invariant with a program of the block's life placed, and one with nothing placed. -/
theorem witness_StepKeepsTheInvariant :
    (∃ s t : State, s.Inv ∧ step s = .next t) ∧
    (∃ s t : State, s.queue ≠ [] ∧ s.Inv ∧ step s = .next t) := by
  refine ⟨⟨fresh 2, _, ⟨fresh_shape, ⟨rfl, rfl, by decide, by decide⟩, fun w hw => (by cases hw)⟩, rfl⟩,
    ⟨(fresh 2).withProgram [.line .init], _, by decide, ⟨?_, ⟨rfl, rfl, by decide, by decide⟩, ?_⟩, rfl⟩⟩
  · exact ⟨⟨by decide, trivial⟩, by decide, by decide, by decide, by decide, by decide, by decide, by decide⟩
  · intro w hw
    exact ⟨.init, by simpa [State.withProgram, expandProgram, expandFrom, SourceLine.expand, Line.instr, encode] using List.mem_singleton.1 hw ▸ rfl, rfl⟩

theorem witness_TheBlockNeverStops : ∃ (s : State) (k : Nat), s.Inv ∧ k = 2 :=
  ⟨fresh 2, 2, ⟨fresh_shape, ⟨rfl, rfl, by decide, by decide⟩, fun w hw => (by cases hw)⟩, rfl⟩

end Sys2Proof.Tests
end

/-! ## Scope: every operation completes, and the block never stops (R10, R239, R250) -/

namespace Sys2Proof.Machine

/-- Every arm of `exec` ends in a next state: there is no fault and no refusal among the meanings (R10, R250). -/
theorem exec_completes (i : Instr) (s : State) : ∃ t, exec i s = .next t := by
  cases i <;> exact ⟨_, rfl⟩

/-- Settles O50: every arm of `exec` ends in a next state. -/
theorem everyOperationCompletes : Obligations.EveryOperationCompletes := exec_completes

/-- The operations of the block's life carry no frame, so all of them can be passed (R126, R239). -/
theorem wellFormed_of_ofLife {i : Instr} (c : Cfg) (h : Instr.ofLife i = true) : i.wellFormed c = true := by
  cases i with
  | txFrame f => nomatch h
  | _ => rfl

theorem tick_queue (p : Pins) (s : State) : (tick p s).queue = s.queue := by
  obtain ⟨_, hqueue, _, _⟩ := tick_carried p s
  exact hqueue

theorem initialise_queue (s : State) : (initialise s).queue = s.queue := (blank_spec s).queue_eq

/-- The operations of the block's life leave the queue alone: it is placed from outside (R239, log 9). -/
theorem exec_queue_of_ofLife {i : Instr} {s t : State} (hi : Instr.ofLife i = true) (h : exec i s = .next t) :
    t.queue = s.queue := by
  cases i with
  | tick pins => cases h; exact tick_queue pins s
  | init => cases h; exact initialise_queue s
  | reset => cases h; rfl
  | _ => nomatch hi

/-- With a queue of the block's life, a step runs one operation of that life on the queue's tail (R239). -/
theorem step_runs_ofLife {s : State} (h : s.QueueOfLife) :
    ∃ i u, step s = exec i u ∧ Instr.ofLife i = true ∧ u.queue = s.queue.tail := by
  cases hq : s.queue with
  | nil =>
    rw [step_nil hq, runLoop]
    split
    · exact ⟨_, _, rfl, rfl, hq⟩
    · exact ⟨_, _, rfl, rfl, hq⟩
  | cons w rest =>
    obtain ⟨i, hdecode, hlife⟩ := h w (by simp [hq])
    refine ⟨i, { s with queue := rest }, ?_, hlife, rfl⟩
    simp [step_cons hq, runWord, hdecode, execChecked, wellFormed_of_ofLife s.cfg hlife]

/-- A queue of the block's life lets the step complete and is one again after it. -/
theorem step_keeps_queueOfLife {s : State} (h : s.QueueOfLife) : ∃ t, step s = .next t ∧ t.QueueOfLife := by
  obtain ⟨i, u, hstep, hlife, hu⟩ := step_runs_ofLife h
  obtain ⟨t, ht⟩ := exec_completes i u
  have htail : t.queue = s.queue.tail := (exec_queue_of_ofLife hlife ht).trans hu
  exact ⟨t, hstep.trans ht, fun w hw => h w (List.mem_of_mem_tail (htail ▸ hw))⟩

/-- A run goes on from where a completed step leads, whatever the machine. -/
theorem run_succ_of_step (M : Host.Core) {s t : M.State} (h : M.step s = .next t) (k : Nat) :
    M.run (k + 1) s = M.run k t := by
  rw [Host.Core.run, h]

theorem SafeFor.succ {k : Nat} {s t : State} (h : step s = .next t) (ht : SafeFor k t) : SafeFor (k + 1) s := by
  obtain ⟨u, hu⟩ := ht
  exact ⟨u, (run_succ_of_step core h k).trans hu⟩

/-- A predicate from which every step completes and which every step keeps makes runs of every length safe. -/
theorem safeFor_of_stepInvariant {P : State → Prop} (hP : ∀ s, P s → ∃ t, step s = .next t ∧ P t) {s : State}
    (h : P s) (k : Nat) : SafeFor k s := by
  induction k generalizing s with
  | zero => exact ⟨s, rfl⟩
  | succ k ih =>
    obtain ⟨t, hstep, ht⟩ := hP s h
    exact .succ hstep (ih ht)

/-- Settles O57. Of the invariant only the queue's part is needed: whatever the registers hold, an operation of the life
completes, and the queue can only get shorter. -/
theorem theBlockNeverStops : Obligations.TheBlockNeverStops := fun _ k h =>
  safeFor_of_stepInvariant (fun _ => step_keeps_queueOfLife) h.queueOfLife k

end Sys2Proof.Machine

/-! ## What each operation can write -/

namespace Sys2Proof.Machine

open Sys2Proof.Claims

/-- What an operation can leave, by the registers it writes. One inversion of `exec` (`exec_effect`) for every statement
that speaks of all operations; the constructors keep the operation, where R36's table asks which one it is. -/
inductive Effect (s : State) : Instr → State → Prop
  /-- a value and no write -/
  | value {i : Instr} (r : OpResult) : Effect s i (s.returns r)
  /-- a sample, or a transition code, absorbed -/
  | absorb {i : Instr} (was is : Sample)
      (hi : i = .qdecSample ∨ isCode i = true ∧
        (qdecStep was is = .zero ∨ i ∈ [Instr.qdecStep13, .qdecStep31, .qdecStep23, .qdecStep32])) :
      Effect s i ((absorb was is s).2.returns (.rot (absorb was is s).1))
  /-- a counted step -/
  | gate (d : Dir) : Effect s (.qdecGate d) ((qdecGate d s).2.returns (.rot (qdecGate d s).1))
  /-- the button's sample -/
  | button : Effect s .btnSample ((btnSample s).2.returns (.btn (btnSample s).1))
  /-- the highlighted index moved along the ring -/
  | rotate {i : Instr} (r : RotEvent) (hi : i = .evRotUp ∨ i = .evRotDown) : Effect s i ((routeRot r s).returns .nothing)
  /-- the mode switched -/
  | mode {i : Instr} (b : BtnEvent) (hi : i ∈ [Instr.evBtnDown, .evBtnUp, .modeConfirm, .modeDefault]) :
      Effect s i ((routeBtn b s).returns .nothing)
  | fade : Effect s .fade ((fade s).returns .nothing)
  | render : Effect s .render ((render s).2.returns (renderResult (render s).1))
  | bit {i : Instr} (b : Bool) (hi : i = .txBit0 ∨ i = .txBit1) : Effect s i ((txBit b s).returns .nothing)
  /-- a channel or a pixel sent, outside any bracket -/
  | bytes {i : Instr} {l : List Byte} {t : State} (hi : (∃ c, i = .txChan c) ∨ ∃ p, i = .txPixel p) (h : Sends s l t) :
      Effect s i (t.returns .nothing)
  /-- a frame or the blank sent, in its bracket -/
  | bracket {i : Instr} {l : List Sym} {t : State} (hi : (∃ f, i = .txFrame f) ∨ i = .blank) (h : FrameSent s l t) :
      Effect s i (t.returns .nothing)
  | init : Effect s .init ((initialise s).returns .nothing)
  | gap : Effect s .showGap ((showGap s).returns .nothing)
  | mask {i : Instr} (m : Bool) (hi : i = .irqMask ∨ i = .irqUnmask) : Effect s i ((s.setIrqMask m).returns .nothing)
  | tick (p : Pins) : Effect s (.tick p) ((tick p s).returns .nothing)
  | reset : Effect s .reset ((powerOn s).returns .nothing)

/-- Every operation's next state is one of these. -/
theorem exec_effect {i : Instr} {s t : State} (h : exec i s = .next t) : Effect s i t := by
  cases i with
  | renderSh | renderPf | renderFh | renderSel | qdecStep was is | hueInit k | hsv2rgb x => cases h; exact .value _
  | qtNop00 | qdecStep01 | qdecStep02 | qdecStep03 | qdecStep10 | qtNop11 | qdecStep12 | qdecStep20 | qdecStep21
  | qtNop22 | qdecStep30 | qtNop33 => cases h; exact .absorb _ _ (.inr ⟨rfl, .inl (by decide)⟩)
  | qdecStep13 | qdecStep31 | qdecStep23 | qdecStep32 =>
    cases h; exact .absorb _ _ (.inr ⟨rfl, .inr (by decide)⟩)
  | qdecSample => cases h; exact .absorb _ _ (.inl rfl)
  | qdecGate d => cases h; exact .gate d
  | btnSample => cases h; exact .button
  | evRotUp => cases h; exact .rotate .up (.inl rfl)
  | evRotDown => cases h; exact .rotate .down (.inr rfl)
  | evBtnDown | modeConfirm => cases h; exact .mode .down (by decide)
  | evBtnUp | modeDefault => cases h; exact .mode .up (by decide)
  | fade => cases h; exact .fade
  | render => cases h; exact .render
  | txBit0 => cases h; exact .bit false (.inl rfl)
  | txBit1 => cases h; exact .bit true (.inr rfl)
  | txChan c => cases h; exact .bytes (.inl ⟨c, rfl⟩) (txChan_sends c s)
  | txPixel p => cases h; exact .bytes (.inr ⟨p, rfl⟩) (txPixel_sends p s)
  | txFrame f => cases h; exact .bracket (.inl ⟨f, rfl⟩) (txFrame_spec f s)
  | blank => cases h; exact .bracket (.inr rfl) (blank_spec s)
  | init => cases h; exact .init
  | showGap => cases h; exact .gap
  | irqMask => cases h; exact .mask true (.inl rfl)
  | irqUnmask => cases h; exact .mask false (.inr rfl)
  | tick p => cases h; exact .tick p
  | reset => cases h; exact .reset

/-! ## The shape of the registers (R46) -/

/-- The shape speaks of the configuration, the engine and the accumulator alone. -/
theorem State.Shape.congr {s t : State} (h : s.Shape) (hcfg : t.cfg = s.cfg) (heng : t.eng = s.eng)
    (hacc : t.enc.acc = s.enc.acc) : t.Shape := by
  obtain ⟨cfg, enc, eng, drv, pins, wire, initDone, queue, out, fresh⟩ := t
  obtain rfl : cfg = s.cfg := hcfg
  obtain rfl : eng = s.eng := heng
  exact { h with accLow := hacc ▸ h.accLow, accHigh := hacc ▸ h.accHigh }

/-- R5's constraints as facts, of those the shape needs. -/
theorem bounds_of_valid {c : Cfg} (h : c.valid) : 1 ≤ c.n ∧ c.vFloor ≤ c.vBright ∧ 1 ≤ c.wAcc := by
  have := h.1
  simp only [Cfg.wf, Bool.and_eq_true, decide_eq_true_eq] at this
  refine ⟨by tauto, by tauto, by omega⟩

/-- A state whose decoder is in the shape after a wrapped addition (R24, R153). -/
theorem State.Shape.setAcc_wrap {s : State} (h : s.Shape) (x : Int) : (s.setAcc (wrapAcc s.cfg.wAcc x)).Shape := by
  obtain ⟨_, _, hw⟩ := bounds_of_valid h.cfgValid
  obtain ⟨hlow, hhigh⟩ := wrapAcc_range s.cfg.wAcc hw x
  exact { h with accLow := hlow, accHigh := hhigh }

theorem State.Shape.setHighlighted {s : State} (h : s.Shape) {i : Nat} (hi : i < s.cfg.n) : (s.setHighlighted i).Shape :=
  { h with indexInRange := hi }

theorem State.Shape.setMode {s : State} (h : s.Shape) (m : EffectMode) : (s.setMode m).Shape := { h with }

theorem State.Shape.noteRendered {s : State} (h : s.Shape) : s.noteRendered.Shape :=
  { h with lastInRange := fun _ => h.indexInRange }

@[simp] theorem absorb_cfg (was is : Sample) (s : State) : (absorb was is s).2.cfg = s.cfg := by rw [absorb_frame]

@[simp] theorem absorb_eng (was is : Sample) (s : State) : (absorb was is s).2.eng = s.eng := by rw [absorb_frame]

theorem State.Shape.absorb {s : State} (h : s.Shape) (was is : Sample) : (absorb was is s).2.Shape := by
  rcases absorb_acc was is s with ha | ⟨x, ha⟩
  · exact h.congr (absorb_cfg was is s) (absorb_eng was is s) ha
  · exact (h.setAcc_wrap x).congr (absorb_cfg was is s) (absorb_eng was is s) ha

theorem State.Shape.btnSample {s : State} (h : s.Shape) : (btnSample s).2.Shape := by
  rw [btnSample_state]
  exact h.congr rfl rfl rfl

theorem State.Shape.routeRot {s : State} (h : s.Shape) (r : RotEvent) : (routeRot r s).Shape := by
  rw [routeRot_eq]
  exact h.setHighlighted (routeRot_lt h.indexInRange)

theorem State.Shape.routeBtn {s : State} (h : s.Shape) (b : BtnEvent) : (routeBtn b s).Shape := by
  rw [routeBtn_eq]
  exact h.setMode _

theorem State.Shape.fade {s : State} (h : s.Shape) : (fade s).Shape := by
  have hcell := fun i hi => readCell_fade (i := i) h.frameLength h.indexInRange hi
  obtain ⟨_, hfb, _⟩ := bounds_of_valid h.cfgValid
  refine { h with frameLength := (length_fade s).trans h.frameLength, hueSat := ?_, valueInRange := ?_ }
  · intro i hi
    rw [hcell i hi]
    exact h.hueSat i hi
  · intro i hi
    obtain ⟨hlow, hhigh⟩ := h.valueInRange i hi
    rw [hcell i hi]
    dsimp only
    split
    · exact ⟨hfb, BitVec.le_refl _⟩
    · exact ⟨vFloor_le_fadeValue s.cfg _ hlow, BitVec.le_trans (fadeValue_le s.cfg _) hhigh⟩

theorem State.Shape.render {s : State} (h : s.Shape) : (render s).2.Shape := by
  rcases render_cases s with ⟨hr, _⟩ | ⟨f, t, hr, _, ⟨rfl, _⟩ | ⟨rfl, _⟩⟩ <;> rw [hr]
  · exact h
  · exact h.noteRendered
  · exact h.fade.noteRendered

theorem State.Shape.sends {s t : State} {l : List Byte} (h : s.Shape) (hs : Sends s l t) : t.Shape :=
  h.congr hs.cfg_eq (by rw [hs.state]) (by rw [hs.state])

theorem State.Shape.frameSent {s t : State} {l : List Sym} (h : s.Shape) (hf : FrameSent s l t) : t.Shape :=
  h.congr hf.cfg_eq hf.eng_eq (congrArg EncoderState.acc hf.enc_eq)

theorem State.Shape.transmit {s : State} (h : s.Shape) (r : Option (List Pixel)) : (transmit r s).Shape := by
  cases r with
  | none => exact h
  | some f => exact h.frameSent (txFrame_spec f s)

/-- The phases of a tick keep the shape, each in turn (R235). -/
theorem State.Shape.tick {s : State} (h : s.Shape) (p : Pins) : (tick p s).Shape :=
  have hpins : (s.setPins p).Shape := h.congr rfl rfl rfl
  (((hpins.absorb _ _).btnSample.routeRot _).routeBtn _).render.transmit _

/-- A record after reset: the sweep's hue, the shared saturation, the floor (R47). -/
theorem readCell_of_resetFrame {s : State} (hf : s.eng.frameHSV = resetFrame s.cfg) {i : Nat} (hi : i < s.cfg.n) :
    s.readCell i = ⟨BitVec.ofNat 16 (s.cfg.hueInit i), s.cfg.sat, s.cfg.vFloor⟩ := by
  simp [State.readCell, State.cell, Nat.mod_eq_of_lt hi, hf, resetFrame, hi]

/-- The registers' reset values have the shape, whatever `lastRenderedIndex` is (R47, R280). -/
theorem State.Shape.of_reset {s : State} (hc : s.cfg.valid) (henc : s.enc = EncoderState.reset) {k : Nat}
    (heng : s.eng = EngineState.reset s.cfg k) : s.Shape := by
  obtain ⟨hn, hfb, _⟩ := bounds_of_valid hc
  have hcell := fun i hi => readCell_of_resetFrame (s := s) (i := i) (by rw [heng]; rfl) hi
  have hp : (0 : Int) < 2 ^ (s.cfg.wAcc - 1) := by positivity
  have hacc : s.enc.acc = 0 := by rw [henc]; rfl
  exact {
    cfgValid := hc
    indexInRange := by rw [heng]; exact hn
    frameLength := by rw [heng]; simp [EngineState.reset, resetFrame]
    hueSat := fun i hi => by rw [hcell i hi]; exact ⟨rfl, rfl⟩
    valueInRange := fun i hi => by rw [hcell i hi]; exact ⟨BitVec.le_refl _, hfb⟩
    lastInRange := fun h => by rw [heng] at h; cases h
    accLow := by omega
    accHigh := by omega }

/-- Settles O54: what each operation can write keeps the shape. -/
theorem everyOperationKeepsShape : Obligations.EveryOperationKeepsShape := by
  intro i s t hs h
  cases exec_effect h with
  | value r => exact hs.congr rfl rfl rfl
  | absorb was is => exact (hs.absorb was is).congr rfl rfl rfl
  | gate d => exact (hs.setAcc_wrap _).congr rfl rfl rfl
  | button => exact hs.btnSample.congr rfl rfl rfl
  | rotate r => exact (hs.routeRot r).congr rfl rfl rfl
  | mode b => exact (hs.routeBtn b).congr rfl rfl rfl
  | fade => exact hs.fade.congr rfl rfl rfl
  | render => exact hs.render.congr rfl rfl rfl
  | bit b => exact (hs.sends (txBit_sends b s)).congr rfl rfl rfl
  | bytes _ hsent => exact (hs.sends hsent).congr rfl rfl rfl
  | bracket _ hsent => exact (hs.frameSent hsent).congr rfl rfl rfl
  | init => exact (hs.frameSent (blank_spec s)).congr rfl rfl rfl
  | gap => exact hs.congr rfl rfl rfl
  | mask m => exact hs.congr rfl rfl rfl
  | tick p => exact (hs.tick p).congr rfl rfl rfl
  | reset => exact .of_reset (s := (powerOn s).returns .nothing) hs.cfgValid rfl rfl

end Sys2Proof.Machine

/-! ## The invariant of the block's life (R46, R127) -/

namespace Sys2Proof.Machine

open Sys2Proof.Claims

/-- Reading a trace in two parts: the second from the level the first leaves. -/
theorem maskAfter_append (m : Bool) (a b : List Sym) : maskAfter m (a ++ b) = (maskAfter m a).bind (maskAfter · b) := by
  induction a generalizing m with
  | nil => cases m <;> rfl
  | cons x a ih =>
    match m, x with
    | true, .byte _ => exact ih true
    | true, .mask false => exact ih false
    | false, .gap _ => exact ih false
    | false, .mask true => exact ih true
    | true, .gap _ | true, .mask true | false, .byte _ | false, .mask false => rfl

/-- Bytes are accepted while masked, and leave the mask as it is (R127). -/
theorem maskAfter_bytes (l : List Byte) : maskAfter true (l.map .byte) = some true := by
  induction l with
  | nil => rfl
  | cons b l ih => exact ih

/-- Bytes in their bracket and the gap that latches them: a frame, and the blank after its leading gap (R97). -/
def bracketSyms (l : List Byte) (us : Nat) : List Sym := .mask true :: l.map .byte ++ [.mask false, .gap us]

theorem frameSyms_eq (c : Cfg) (f : List Pixel) : frameSyms c f = bracketSyms (frameBytes c f) c.gapShowUs := rfl

theorem blankSyms_eq (c : Cfg) :
    blankSyms c = .gap c.gapPreUs :: bracketSyms (frameBytes c (List.replicate c.n Pixel.black)) c.gapBlankUs := rfl

theorem bracketed_bracketSyms (l : List Byte) (us : Nat) : bracketed (bracketSyms l us) = true := by
  show (maskAfter true (l.map .byte ++ [.mask false, .gap us]) == some false) = true
  rw [maskAfter_append, maskAfter_bytes]
  rfl

theorem bracketed_frameSyms (c : Cfg) (f : List Pixel) : bracketed (frameSyms c f) = true := bracketed_bracketSyms _ _

theorem bracketed_blankSyms (c : Cfg) : bracketed (blankSyms c) = true := bracketed_bracketSyms _ _

/-- Bracketed traces put together are bracketed (R127). -/
theorem bracketed_append {a b : List Sym} (ha : bracketed a = true) (hb : bracketed b = true) :
    bracketed (a ++ b) = true := by
  simp only [bracketed, beq_iff_eq] at *
  rw [maskAfter_append, ha, Option.bind_some, hb]

/-- What `INIT` does is what `BLANK` does, but for the boot bit (R121). -/
theorem initialise_eq (s : State) : initialise s = { blank s with initDone := true } := rfl

/-- `INIT` ends with interrupts enabled and one whole blank on the trace; the samples are not touched (R121, R127). -/
theorem State.Settled.initialise {s : State} (h : s.Settled) : (initialise s).Settled := by
  have hb := blank_spec s
  have henc : (Machine.initialise s).enc = s.enc := hb.enc_eq
  have hwire : (Machine.initialise s).wire = s.wire ++ blankSyms s.cfg := hb.wire_eq
  exact {
    absorbed := by rw [henc]; exact h.absorbed
    buttonSeen := by rw [henc]; exact h.buttonSeen
    unmasked := fun _ => hb.irqMask
    traceBracketed := by rw [hwire]; exact bracketed_append h.traceBracketed (bracketed_blankSyms s.cfg) }

/-- Routing reads events and writes the engine (R226). -/
theorem route_enc (r : RotEvent) (b : BtnEvent) (s : State) : (route r b s).enc = s.enc := by
  cases r <;> cases b <;> rfl

/-- The samples a tick leaves: both of each half are the pin word's (R23, R25, R150, R155). -/
theorem sampleAndRoute_enc (s : State) :
    (sampleAndRoute s).enc.is = s.pins.sample ∧ (sampleAndRoute s).enc.was = s.pins.sample ∧
    (sampleAndRoute s).enc.buttonNow = s.pins.pressed ∧ (sampleAndRoute s).enc.buttonLast = s.pins.pressed := by
  have hpins : (qdecSample s).2.pins = s.pins := by rw [qdecSample_frame]
  have henc : (sampleAndRoute s).enc =
      { (qdecSample s).2.enc with buttonNow := s.pins.pressed, buttonLast := s.pins.pressed } := by
    simp only [sampleAndRoute, route_enc, samplePhase, btnSample_state, hpins]
  rw [henc]
  exact ⟨absorb_is _ _ s, absorb_was _ s, rfl, rfl⟩

theorem sampleAndRoute_drv (s : State) : (sampleAndRoute s).drv = s.drv := by rw [sampleAndRoute_frame]
theorem sampleAndRoute_wire (s : State) : (sampleAndRoute s).wire = s.wire := by rw [sampleAndRoute_frame]
theorem sampleAndRoute_cfg (s : State) : (sampleAndRoute s).cfg = s.cfg := by rw [sampleAndRoute_frame]

/-- What a tick does to the decoder is done before `RENDER` (R235). -/
theorem tick_enc_eq (p : Pins) (s : State) : (tick p s).enc = (sampleAndRoute (s.setPins p)).enc := by
  rcases tick_cases p s with ⟨h, _⟩ | ⟨f, e, _, _, h⟩
  · rw [h]
  · rw [h, (txFrame_spec f _).enc_eq]

theorem tick_enc (p : Pins) (s : State) :
    (tick p s).enc.is = p.sample ∧ (tick p s).enc.was = p.sample ∧
    (tick p s).enc.buttonNow = p.pressed ∧ (tick p s).enc.buttonLast = p.pressed := by
  rw [tick_enc_eq]
  exact sampleAndRoute_enc (s.setPins p)

/-- A tick's trace segment (R235): empty, and then the driver is as it was, or one whole frame of N pixels with
interrupts enabled after it. -/
theorem tick_wire (p : Pins) (s : State) :
    ((tick p s).wire = s.wire ∧ (tick p s).drv = s.drv) ∨
    ∃ f, f.length = s.cfg.n ∧ (tick p s).wire = s.wire ++ frameSyms s.cfg f ∧ (tick p s).drv.irqMask = false := by
  rcases tick_cases p s with ⟨h, _⟩ | ⟨f, e, _, hl, h⟩
  · rw [h, sampleAndRoute_wire, sampleAndRoute_drv]
    exact .inl ⟨rfl, rfl⟩
  · have hf := txFrame_spec f { sampleAndRoute (s.setPins p) with eng := e }
    rw [h]
    refine .inr ⟨f, hl, ?_, hf.irqMask⟩
    rw [hf.wire_eq]
    simp only [sampleAndRoute_wire, sampleAndRoute_cfg, State.setPins_wire, State.setPins_cfg]

/-- Whatever the samples were before, a tick leaves them absorbed (R46 (5), (6)). -/
theorem State.Settled.tick {s : State} (h : s.Settled) (p : Pins) : (tick p s).Settled := by
  obtain ⟨his, hwas, hnow, hlast⟩ := tick_enc p s
  obtain ⟨_, _, hinit, _⟩ := tick_carried p s
  have hmask : s.initDone = true → (Machine.tick p s).drv.irqMask = false := by
    intro hs
    rcases tick_wire p s with ⟨_, hd⟩ | ⟨f, _, _, hm⟩
    · rw [hd]; exact h.unmasked hs
    · exact hm
  refine ⟨his.trans hwas.symm, hnow.trans hlast.symm, fun ht => hmask (hinit ▸ ht), ?_⟩
  rcases tick_wire p s with ⟨hw, _⟩ | ⟨f, _, hw, _⟩ <;> rw [hw]
  · exact h.traceBracketed
  · exact bracketed_append h.traceBracketed (bracketed_frameSyms s.cfg f)

/-- The four clauses speak of the decoder, the boot bit, the mask bit and the trace alone. -/
theorem State.Settled.congr {s t : State} (h : s.Settled) (henc : t.enc = s.enc) (hinit : t.initDone = s.initDone)
    (hdrv : t.drv = s.drv) (hwire : t.wire = s.wire) : t.Settled where
  absorbed := henc ▸ h.absorbed
  buttonSeen := henc ▸ h.buttonSeen
  unmasked := hinit ▸ hdrv ▸ h.unmasked
  traceBracketed := hwire ▸ h.traceBracketed

/-- The block's life before its first `INIT` (R47, R280): all samples 0 and nothing sent. -/
theorem State.Settled.of_reset {s : State} (henc : s.enc = EncoderState.reset) (hinit : s.initDone = false)
    (hwire : s.wire = []) : s.Settled where
  absorbed := by rw [henc]; rfl
  buttonSeen := by rw [henc]; rfl
  unmasked h := by rw [hinit] at h; cases h
  traceBracketed := by rw [hwire]; rfl

/-- The operations of the block's life leave it settled (R46 (5) to (7), R127). -/
theorem State.Settled.exec_ofLife {i : Instr} {s t : State} (hs : s.Settled) (hi : Instr.ofLife i = true)
    (h : exec i s = .next t) : t.Settled := by
  cases i with
  | tick p => cases h; exact (hs.tick p).congr rfl rfl rfl rfl
  | init => cases h; exact hs.initialise.congr rfl rfl rfl rfl
  | reset => cases h; exact .of_reset rfl rfl rfl
  | _ => nomatch hi

/-- An operation of the block's life keeps the whole invariant. -/
theorem State.Inv.exec_ofLife {i : Instr} {s t : State} (hs : s.Inv) (hi : Instr.ofLife i = true)
    (h : exec i s = .next t) : t.Inv where
  shape := everyOperationKeepsShape i s t hs.shape h
  settled := hs.settled.exec_ofLife hi h
  queueOfLife := fun w hw => hs.queueOfLife w (exec_queue_of_ofLife hi h ▸ hw)

/-- Taking the head off the queue and drawing a free value keep the invariant: it speaks of neither. -/
theorem State.Inv.fetch {s : State} (h : s.Inv) (k : Nat) :
    State.Inv { s with queue := s.queue.tail, fresh := k } where
  shape := h.shape.congr rfl rfl rfl
  settled := h.settled.congr rfl rfl rfl rfl
  queueOfLife := fun w hw => h.queueOfLife w (List.mem_of_mem_tail hw)

/-- A step with a queue of the block's life is one operation of that life, from the state whose queue has lost its head. -/
theorem step_eq_exec_ofLife {s : State} (h : s.QueueOfLife) :
    ∃ i k, step s = exec i { s with queue := s.queue.tail, fresh := k } ∧ Instr.ofLife i = true := by
  cases hq : s.queue with
  | nil =>
    rw [step_nil hq, runLoop, List.tail_nil, ← hq]
    split
    · exact ⟨_, s.fresh + 1, rfl, rfl⟩
    · exact ⟨_, s.fresh, rfl, rfl⟩
  | cons w rest =>
    obtain ⟨i, hdecode, hlife⟩ := h w (by simp [hq])
    refine ⟨i, s.fresh, ?_, hlife⟩
    simp [step_cons hq, runWord, hdecode, execChecked, wellFormed_of_ofLife s.cfg hlife]

/-- Settles O56: a step is an operation of the block's life, and each of those keeps the invariant. -/
theorem stepKeepsTheInvariant : Obligations.StepKeepsTheInvariant := by
  intro s t hs h
  obtain ⟨i, k, hstep, hlife⟩ := step_eq_exec_ofLife hs.queueOfLife
  exact (hs.fetch k).exec_ofLife hlife (hstep ▸ h)

/-- R5's default column meets R5's constraints. -/
theorem default_valid : Cfg.default.valid := ⟨by decide, trivial⟩

/-- Settles O55: the registers' reset values, and nothing queued. -/
theorem invariantHoldsAtReset : Obligations.InvariantHoldsAtReset := by
  have hreset : ∀ c : Cfg, c.valid → (State.resetWith c).Inv := fun c hc =>
    { shape := .of_reset hc rfl rfl
      settled := .of_reset rfl rfl rfl
      queueOfLife := fun _ hw => nomatch hw }
  exact ⟨hreset Cfg.default default_valid, hreset⟩

end Sys2Proof.Machine

/-! ## What the ring shows (R44, R104) -/

namespace Sys2Proof.Machine

open Sys2Proof.Claims

/-- The 24 logical bits of a pixel, first sent first: G, R, B, each most significant first (R65, R96). -/
def pixelBits (p : Pixel) : List Bool := msbFirst p.g ++ msbFirst p.r ++ msbFirst p.b

/-- A frame's bytes are the patterns of its logical bits (R95, R97). -/
theorem frameBytes_eq (c : Cfg) (f : List Pixel) : frameBytes c f = (f.flatMap pixelBits).map (patternOf c) := by
  rw [List.map_flatMap]
  exact congrArg (List.flatMap · f) (funext (pixelBytes_eq c))

theorem length_pixelBits (p : Pixel) : (pixelBits p).length = 24 := rfl

/-- A byte read back from its own bits (R104). -/
theorem byteOfBits_msbFirst (b : Byte) : byteOfBits (msbFirst b) = b := by revert b; decide

/-- A pixel read back from its own bits (R104). -/
theorem pixelOfBits_pixelBits (p : Pixel) : pixelOfBits (pixelBits p) = p := by
  show Pixel.mk (byteOfBits (msbFirst p.r)) (byteOfBits (msbFirst p.g)) (byteOfBits (msbFirst p.b)) = p
  simp only [byteOfBits_msbFirst]

/-- A frame's pixels read back from its bits (R104). -/
theorem pixelsOfBits_flatMap (f : List Pixel) : pixelsOfBits f.length (f.flatMap pixelBits) = f := by
  induction f with
  | nil => rfl
  | cons p rest ih =>
    simp only [List.flatMap_cons, List.length_cons, pixelsOfBits, List.take_left' (length_pixelBits p),
      List.drop_left' (length_pixelBits p), pixelOfBits_pixelBits, ih]

/-- A pattern carries the bit it was made of, the two patterns being different (R95, R104). -/
theorem bitOfByte_patternOf {c : Cfg} (h : c.patOne ≠ c.patZero) (b : Bool) : bitOfByte c (patternOf c b) = some b := by
  cases b <;> simp [bitOfByte, patternOf, h.symm]

theorem bitsOfBytes_patternOf {c : Cfg} (h : c.patOne ≠ c.patZero) (l : List Bool) :
    bitsOfBytes c (l.map (patternOf c)) = some l := by
  induction l with
  | nil => rfl
  | cons b l ih => simp [bitsOfBytes, bitOfByte_patternOf h, ih]

/-- `DecodeWire` gives back the frame of N pixels whose bytes it reads (R104). -/
theorem decodeWire_frameBytes {c : Cfg} (h : c.patOne ≠ c.patZero) {f : List Pixel} (hf : f.length = c.n) :
    decodeWire c (frameBytes c f) = some f := by
  have hl : (frameBytes c f).length = 24 * c.n := by rw [length_frameBytes, hf]
  rw [decodeWire, if_neg (not_not.2 hl), frameBytes_eq, bitsOfBytes_patternOf h, Option.map_some, ← hf,
    pixelsOfBits_flatMap]

/-- Bytes are collected one after another (R44). -/
theorem foldl_see_bytes (c : Cfg) (l : List Byte) (v : RingView) :
    (l.map Sym.byte).foldl (RingView.see c) v = { v with collecting := v.collecting ++ l } := by
  induction l generalizing v with
  | nil => simp
  | cons b l ih => simp [RingView.see, ih]

/-- A bracket and its trailing gap show the bytes in between, whatever the ring has seen before (R44). -/
theorem shown_bracket (c : Cfg) (l : List Byte) (us : Nat) (v : RingView) :
    ((bracketSyms l us).foldl (RingView.see c) v).shown = decodeWire c l := by
  simp [bracketSyms, RingView.see, foldl_see_bytes]

/-- A trace that ends in a frame of N pixels shows it (R44). -/
theorem ringShows_frame {c : Cfg} (h : c.patOne ≠ c.patZero) {f : List Pixel} (hf : f.length = c.n) (wire : List Sym)
    (us : Nat) : ringShows c (wire ++ bracketSyms (frameBytes c f) us) = some f := by
  rw [ringShows, List.foldl_append, shown_bracket, decodeWire_frameBytes h hf]

/-- Settles O41: `INIT` and `TX.FRAME` leave a trace that ends in a bracket and its gap, the blank of black pixels or the
frame (R122, R126). -/
theorem ringShowsTheLastFrame : Obligations.RingShowsTheLastFrame := by
  intro s t hpat
  constructor
  · intro h
    cases h
    have hwire : (initialise s).wire = s.wire ++ blankSyms s.cfg := (blank_spec s).wire_eq
    have hcfg : (initialise s).cfg = s.cfg := (blank_spec s).cfg_eq
    rw [State.returns_wire, State.returns_cfg, hcfg, hwire, blankSyms_eq, List.append_cons]
    exact ringShows_frame hpat (by simp) _ _
  · intro f hf h
    cases h
    have hsent := txFrame_spec f s
    rw [State.returns_wire, State.returns_cfg, hsent.cfg_eq, hsent.wire_eq]
    exact ringShows_frame hpat hf _ _

end Sys2Proof.Machine

/-! ## What a tick leaves (R32 to R36) -/

namespace Sys2Proof.Machine

open Sys2Proof.Claims

/-- The `H` and `S` of stored records, which `RESET` alone writes (R32). -/
def hueSats (f : List PixelHSV) : List (Hue × Byte) := f.map fun x => (x.h, x.s)

/-- `FADE` writes values only (R185). -/
theorem hueSats_fade (s : State) : hueSats (fade s).eng.frameHSV = hueSats s.eng.frameHSV := by
  refine List.ext_getElem? fun i => ?_
  simp only [hueSats, fade, State.writeV_eng, decayAll, State.setFrameHSV_eng, List.getElem?_map, List.getElem?_modify]
  cases s.eng.frameHSV[i]? with
  | none => rfl
  | some x => simp only [Option.map_some]; split <;> rfl

/-- The hue and the saturation a cell reads, missing cells included. -/
theorem readCell_hueSat (s : State) (i : Nat) :
    ((s.readCell i).h, (s.readCell i).s) =
      (hueSats s.eng.frameHSV).getD (s.cell i) ((Config.missingCell i).h, (Config.missingCell i).s) :=
  (List.getD_map s.eng.frameHSV (Config.missingCell i) fun x => (x.h, x.s)).symm

theorem render_hueSats (s : State) : hueSats (render s).2.eng.frameHSV = hueSats s.eng.frameHSV := by
  rcases render_cases s with ⟨h, _⟩ | ⟨f, t, h, _, ⟨rfl, _⟩ | ⟨rfl, _⟩⟩ <;> rw [h]
  · rfl
  · exact hueSats_fade s

/-- `RENDER` writes `frameHSV` in FadingHighlight alone (R185, R192). -/
theorem render_frameHSV {s : State} (hm : s.eng.activeMode ≠ .fadingHighlight) :
    (render s).2.eng.frameHSV = s.eng.frameHSV := by
  rcases render_cases s with ⟨h, _⟩ | ⟨f, t, h, _, ⟨rfl, _⟩ | ⟨_, hf⟩⟩
  · rw [h]
  · rw [h, State.noteRendered_eng]
  · exact absurd hf hm

theorem render_activeMode (s : State) : (render s).2.eng.activeMode = s.eng.activeMode := by
  rcases render_cases s with ⟨h, _⟩ | ⟨f, t, h, _, ⟨rfl, _⟩ | ⟨rfl, _⟩⟩ <;> rw [h] <;> rfl

theorem render_highlightedIndex (s : State) : (render s).2.eng.highlightedIndex = s.eng.highlightedIndex := by
  rcases render_cases s with ⟨h, _⟩ | ⟨f, t, h, _, ⟨rfl, _⟩ | ⟨rfl, _⟩⟩ <;> rw [h] <;> rfl

theorem render_cfg (s : State) : (render s).2.cfg = s.cfg := by rw [render_frame]
theorem render_enc (s : State) : (render s).2.enc = s.enc := by rw [render_frame]
theorem render_drv (s : State) : (render s).2.drv = s.drv := by rw [render_frame]
theorem render_wire (s : State) : (render s).2.wire = s.wire := by rw [render_frame]

/-- Every frame `RENDER` gives has N pixels (R67). -/
theorem length_of_render {s : State} {f : List Pixel} (h : (render s).1 = some f) : f.length = s.cfg.n := by
  rcases render_cases s with ⟨hr, _⟩ | ⟨g, t, hr, hl, _⟩ <;> rw [hr] at h <;> cases h
  exact hl

/-- Sending a frame leaves the engine alone (R36). -/
theorem transmit_eng (r : Option (List Pixel)) (s : State) : (transmit r s).eng = s.eng := by
  cases r with
  | none => rfl
  | some f => exact (txFrame_spec f s).eng_eq

/-- What a tick does to the engine it does up to `RENDER` (R235). -/
theorem tick_eng (p : Pins) (s : State) : (tick p s).eng = (render (sampleAndRoute (s.setPins p))).2.eng :=
  transmit_eng _ _

theorem sampleAndRoute_frameHSV (s : State) : (sampleAndRoute s).eng.frameHSV = s.eng.frameHSV := by
  rw [sampleAndRoute_frame]

theorem tick_hueSats (p : Pins) (s : State) : hueSats (tick p s).eng.frameHSV = hueSats s.eng.frameHSV := by
  rw [tick_eng, render_hueSats, sampleAndRoute_frameHSV, State.setPins_eng]

theorem tick_frameHSV {p : Pins} {s : State} (hm : (tick p s).eng.activeMode ≠ .fadingHighlight) :
    (tick p s).eng.frameHSV = s.eng.frameHSV := by
  rw [tick_eng, render_activeMode] at hm
  rw [tick_eng, render_frameHSV hm, sampleAndRoute_frameHSV, State.setPins_eng]

/-- The fields a tick may write, beside the record of its result (R36). -/
theorem tick_frame (p : Pins) (s : State) :
    tick p s = { s with
      enc := (tick p s).enc, eng := (tick p s).eng, drv := (tick p s).drv, pins := p, wire := (tick p s).wire
      fresh := (tick p s).fresh, out := (tick p s).out } := by
  obtain ⟨hcfg, hqueue, hinit, hpins⟩ := tick_carried p s
  generalize tick p s = t at *
  obtain ⟨cfg, enc, eng, drv, pins, wire, initDone, queue, out, fresh⟩ := t
  subst hcfg hqueue hinit hpins
  rfl

/-- Settles O44: the tick's frame, the hues and saturations it keeps read cell by cell, and the samples absorbed. -/
theorem tickFrame : Obligations.TickFrame := by
  intro s p
  have hlength : (tick p s).eng.frameHSV.length = s.eng.frameHSV.length := by
    simpa [hueSats] using congrArg List.length (tick_hueSats p s)
  have hcell : (tick p s).cell = s.cell := by rw [tick_frame]; rfl
  have hhs : ∀ i, (((tick p s).readCell i).h, ((tick p s).readCell i).s) = ((s.readCell i).h, (s.readCell i).s) :=
    fun i => by rw [readCell_hueSat, readCell_hueSat, tick_hueSats, hcell]
  refine ⟨(tick p s).returns .nothing, rfl, ?_, hlength, fun i => Prod.mk.inj (hhs i), tick_frameHSV, tick_enc p s⟩
  conv_lhs => rw [tick_frame]
  rfl

/-- One position on is addition modulo N (R64, R220). -/
theorem wrapinc_eq_mod {n i : Nat} (h : i < n) : wrapinc n i = (i + 1) % n := by
  unfold wrapinc
  split
  next hi => rw [hi, Nat.sub_add_cancel (by omega), Nat.mod_self]
  next hi => rw [Nat.mod_eq_of_lt (by omega)]

/-- One position back is addition of `N - 1` modulo N (R64, R221). -/
theorem wrapdec_eq_mod {n i : Nat} (h : i < n) : wrapdec n i = (i + (n - 1)) % n := by
  unfold wrapdec
  split
  next hi => rw [hi, Nat.zero_add, Nat.mod_eq_of_lt (by omega)]
  next hi => rw [show i + (n - 1) = i - 1 + n by omega, Nat.add_mod_right, Nat.mod_eq_of_lt (by omega)]

/-- The tick's rotate event moves the index as it would have moved it before the tick: sampling and rendering do not write
it (R34). -/
theorem tick_highlightedIndex (p : Pins) (s : State) :
    (tick p s).eng.highlightedIndex = (routeRot (samplePhase (s.setPins p)).1 s).eng.highlightedIndex := by
  rw [tick_eng, render_highlightedIndex, sampleAndRoute, route_index, (samplePhase_spec (s.setPins p)).1]
  cases (samplePhase (s.setPins p)).1 <;> rfl

/-- Settles O53: a tick routes at most one rotate event. -/
theorem indexMovesAtMostOnePerTick : Obligations.IndexMovesAtMostOnePerTick := by
  intro s t p hs h
  cases h
  rw [State.returns_eng, tick_highlightedIndex]
  refine ⟨routeRot_lt hs, ?_⟩
  cases (samplePhase (s.setPins p)).1 with
  | none => exact .inl rfl
  | up => exact .inr (.inl (wrapinc_eq_mod hs))
  | down => exact .inr (.inr (wrapdec_eq_mod hs))

/-! ## The tick and its phases (R27, R28, R237) -/

/-- The five phases up to RENDER, one small step each (R27). -/
theorem MidTick.run_to_transmit (s : State) :
    MidTick.run 5 (MidTick.resting s) =
      ⟨.transmit, (Machine.render (sampleAndRoute s)).2, (samplePhase s).1, (samplePhase s).2.1,
        (Machine.render (sampleAndRoute s)).1⟩ := rfl

/-- A skip goes through TRANSMIT and SHOW in a step each (R235). -/
theorem MidTick.run_skip (s : State) (r : RotEvent) (b : BtnEvent) :
    MidTick.run 2 ⟨.transmit, s, r, b, none⟩ = MidTick.resting s := rfl

/-- TRANSMIT and SHOW of a frame: its entry, 24 steps a pixel, its end (R126, R128). -/
theorem MidTick.run_frame {f : List Pixel} (hf : f ≠ []) (s : State) (r : RotEvent) (b : BtnEvent) :
    MidTick.run (2 + 24 * f.length) ⟨.transmit, s, r, b, some f⟩ = MidTick.resting (txFrame f s) := by
  have hbytes := MidTick.run_pixels f r b f 0 (s.setIrqMask true) rfl hf
  rw [show 2 + 24 * f.length = 1 + 24 * f.length + 1 by omega, MidTick.run_add, MidTick.run_add]
  exact congrArg (MidTick.run 1) hbytes

/-- Settles O45: the phases up to RENDER are the atomic tick's own, and TRANSMIT sends the same frame bit by bit. -/
theorem tickRefinesToItsPhases : Obligations.TickRefinesToItsPhases := by
  intro s p hn
  refine ⟨tick p s, rfl, ?_⟩
  have hwire : (render (sampleAndRoute (s.setPins p))).2.wire = s.wire := by
    rw [render_wire, sampleAndRoute_wire, State.setPins_wire]
  have hcfg : (sampleAndRoute (s.setPins p)).cfg = s.cfg := sampleAndRoute_cfg _
  show MidTick.run _ (MidTick.resting (s.setPins p)) = _
  rw [show ∀ k, 7 + k = 5 + (2 + k) by omega, MidTick.run_add, MidTick.run_to_transmit]
  cases hr : (render (sampleAndRoute (s.setPins p))).1 with
  | none =>
    have htick : tick p s = (render (sampleAndRoute (s.setPins p))).2 := by rw [tick, hr]; rfl
    rw [htick, if_pos hwire]
    exact MidTick.run_skip _ _ _
  | some f =>
    have htick : tick p s = txFrame f (render (sampleAndRoute (s.setPins p))).2 := by rw [tick, hr]; rfl
    have hlen : f.length = s.cfg.n := (length_of_render hr).trans (congrArg Cfg.n hcfg)
    have hsent : (tick p s).wire ≠ s.wire := by
      rw [htick, (txFrame_spec f _).wire_eq, hwire]
      simp [frameSyms]
    rw [if_neg hsent, ← hlen, htick]
    exact MidTick.run_frame (List.ne_nil_of_length_pos (by omega)) _ _ _

end Sys2Proof.Machine

/-! ## Who writes what (R35, R36) -/

namespace Sys2Proof.Machine

open Sys2Proof.Claims

section Frames

variable (s : State) (was is : Sample)

@[simp] theorem absorb_drv : (absorb was is s).2.drv = s.drv := by rw [absorb_frame]
@[simp] theorem absorb_wire : (absorb was is s).2.wire = s.wire := by rw [absorb_frame]
@[simp] theorem absorb_buttonNow : (absorb was is s).2.enc.buttonNow = s.enc.buttonNow := (absorb_button was is s).1
@[simp] theorem absorb_buttonLast : (absorb was is s).2.enc.buttonLast = s.enc.buttonLast := (absorb_button was is s).2

end Frames

/-- A transition the table ignores leaves the accumulator (R94, R150). -/
theorem absorb_acc_of_zero {was is : Sample} (hz : qdecStep was is = .zero) (s : State) :
    (absorb was is s).2.enc.acc = s.enc.acc := by
  by_cases h : is = was
  · rw [h, absorb_same]; rfl
  · rw [absorb_ignored h hz]; rfl

theorem Sends.enc_eq {s t : State} {l : List Byte} (h : Sends s l t) : t.enc = s.enc := by rw [h.state]
theorem Sends.eng_eq {s t : State} {l : List Byte} (h : Sends s l t) : t.eng = s.eng := by rw [h.state]

/-- A button event leads to the two modes of R224 and R225 alone (R35). -/
theorem routeBtn_mode (b : BtnEvent) (s : State) :
    (routeBtn b s).eng.activeMode = s.eng.activeMode ∨ (routeBtn b s).eng.activeMode = .selectedHighlightOnly ∨
      (routeBtn b s).eng.activeMode = .fadingHighlight := by
  cases b with
  | none => exact .inl rfl
  | down => exact .inr (.inl rfl)
  | up => exact .inr (.inr rfl)

/-- A tick's mode is the one its button event leads to (R222, R223, R235). -/
theorem tick_activeMode (p : Pins) (s : State) :
    (tick p s).eng.activeMode = (routeBtn (samplePhase (s.setPins p)).2.1 s).eng.activeMode := by
  rw [tick_eng, render_activeMode, sampleAndRoute, (samplePhase_spec (s.setPins p)).1]
  cases (samplePhase (s.setPins p)).1 <;> cases (samplePhase (s.setPins p)).2.1 <;> rfl

/-- Settles O52: a button event leads to two modes only, and of the other operations `RESET` alone writes the mode. -/
theorem noWayBackToTheResetOnlyModes : Obligations.NoWayBackToTheResetOnlyModes := by
  intro i s t hi h
  cases exec_effect h with
  | mode b => exact routeBtn_mode b s
  | tick p =>
    rw [State.returns_eng, tick_activeMode]
    exact routeBtn_mode _ s
  | reset => exact absurd rfl hi
  | absorb was is => exact .inl (by rw [State.returns_eng, absorb_eng])
  | button => exact .inl (by rw [State.returns_eng, btnSample_state])
  | rotate r => exact .inl (by rw [State.returns_eng, routeRot_eq]; rfl)
  | render => exact .inl (render_activeMode s)
  | bytes _ hs => exact .inl (by rw [State.returns_eng, hs.eng_eq])
  | bracket _ hf => exact .inl (by rw [State.returns_eng, hf.eng_eq])
  | init => exact .inl (congrArg EngineState.activeMode (blank_spec s).eng_eq)
  | value | gate | fade | bit | gap | mask => exact .inl rfl

/-- Settles O51. For each kind of write the rows of R36's table follow from what it leaves as it was, and the rows it does
write name the operation; of `frameHSV`, which `FADE`, `RENDER` and `TICK` write, the hues and saturations stay. -/
theorem writeOwnership : Obligations.WriteOwnership := by
  intro i s t h
  cases exec_effect h with
  | value r => simp
  | absorb was is hi =>
    rcases hi with rfl | ⟨hcode, hzero | hcounted⟩
    · simp
    · simp [hcode, absorb_acc_of_zero hzero]
    · simp [hcode, hcounted]
  | gate d => simp [qdecGate_eq]
  | button => simp [btnSample_state]
  | rotate r hi =>
    rw [routeRot_eq]
    rcases hi with rfl | rfl <;> simp
  | mode b hi =>
    rw [routeBtn_eq]
    simp [hi]
  | fade =>
    have hhs := hueSats_fade s
    rw [hueSats, hueSats] at hhs
    rw [fade_frame]
    generalize (fade s).eng.frameHSV = f at hhs ⊢
    simp [hhs]
  | render =>
    have hhs := render_hueSats s
    rw [hueSats, hueSats] at hhs
    simp [render_cfg, render_enc, render_drv, render_wire, render_highlightedIndex, render_activeMode, hhs]
  | bit b hi =>
    rw [txBit_eq]
    rcases hi with rfl | rfl <;> simp [sendsBytes]
  | bytes hi hs =>
    rcases hi with ⟨c, rfl⟩ | ⟨p, rfl⟩ <;> simp [hs.cfg_eq, hs.enc_eq, hs.eng_eq, hs.irqMask, sendsBytes]
  | bracket hi hf =>
    rcases hi with ⟨f, rfl⟩ | rfl <;> simp [hf.cfg_eq, hf.enc_eq, hf.eng_eq, sendsBytes]
  | init =>
    have hf := blank_spec s
    simp [initialise_eq, hf.cfg_eq, hf.enc_eq, hf.eng_eq, sendsBytes]
  | gap => simp [showGap]
  | mask m hi =>
    rcases hi with rfl | rfl <;> simp
  | tick p =>
    have hhs := tick_hueSats p s
    rw [hueSats, hueSats] at hhs
    obtain ⟨hcfg, _⟩ := tick_carried p s
    simp [isWhole, hcfg, hhs]
  | reset =>
    have hcfg : (powerOn s).cfg = s.cfg := rfl
    simp [isWhole, hcfg]

/-- Settles O49: every entry of R47 by definition, and R5's default column. -/
theorem resetStateValues : Obligations.ResetStateValues :=
  ⟨fun _ => ⟨rfl, rfl, rfl, rfl, rfl, rfl, rfl, rfl, rfl⟩, rfl, default_valid, rfl, rfl⟩

end Sys2Proof.Machine

/-! ## Encoded operations (R90 to R101) -/

namespace Sys2Proof

/-- A frame's operands are read back pixel by pixel (R126). -/
theorem operandPixels_flatMap (f : List Pixel) : operandPixels (f.flatMap pixelOperands) = some f := by
  induction f with
  | nil => rfl
  | cons p rest ih =>
    show operandPixels (_ :: _ :: _ :: rest.flatMap pixelOperands) = _
    simp [operandPixels, operandBits_bitsOperand, ih]

/-- A field accepts the one number that is its own, and no other. -/
theorem operandBits_eq_some {w : Nat} {x : Int} {b : BitVec w} : operandBits w x = some b ↔ bitsOperand b = x :=
  ⟨bitsOperand_of_operandBits, fun h => h ▸ operandBits_bitsOperand b⟩

/-- Operands are read as a frame exactly if they are that frame's, pixel by pixel. -/
theorem operandPixels_eq_some {l : List Int} {f : List Pixel} :
    operandPixels l = some f ↔ f.flatMap pixelOperands = l := by
  refine ⟨fun h => ?_, fun h => h ▸ operandPixels_flatMap f⟩
  fun_induction operandPixels l generalizing f with
  | case1 => cases h; rfl
  | case2 r g b rest ih =>
    simp only [Option.bind_eq_bind, Option.bind_eq_some_iff, Option.some.injEq, operandBits_eq_some] at h
    obtain ⟨r, rfl, g, rfl, b, rfl, f, hf, rfl⟩ := h
    exact congrArg (pixelOperands ⟨r, g, b⟩ ++ ·) (ih hf)
  | case3 => cases h

/-- A code decodes to what its format selects (R90). -/
theorem decode_coded_eq_ok {fmt : Format} {bits : Nat} {i : Instr} :
    decode (.coded fmt bits) = .ok i ↔ decodeCode fmt bits = some i := by
  simp only [decode]
  cases decodeCode fmt bits <;> simp

/-- A name decodes to what it selects with its operands (log 34). -/
theorem decode_named_eq_ok {op : OpName} {l : List Int} {i : Instr} :
    decode (.named op l) = .ok i ↔ decodeNamed op l = some i := by
  simp only [decode]
  cases decodeNamed op l <;> simp

/-- A pin word read back from its three levels (R91). -/
theorem codeOfPins_pinsOfCode {bits : Nat} (h : bits < 8) : codeOfPins (pinsOfCode bits) = bits := by
  revert bits
  decide

/-- Each code of a format is the code of the operation it selects (R91 to R99). -/
theorem encode_of_decodeCode {fmt : Format} {bits : Nat} {i : Instr} (h : decodeCode fmt bits = some i) :
    encode i = .coded fmt bits := by
  cases fmt with
  | IN =>
    simp only [decodeCode, decodeIN, Option.ite_none_right_eq_some, Option.some.injEq] at h
    obtain ⟨hbits, rfl⟩ := h
    exact congrArg (OpWord.coded .IN) (codeOfPins_pinsOfCode hbits)
  | QT | WB | MT | EV =>
    simp only [decodeCode, decodeQT.eq_def, decodeWB.eq_def, decodeMT.eq_def, decodeEV.eq_def] at h
    split at h <;> cases h <;> rfl

/-- Each name with its operands is the word of the operation it selects (log 34). -/
theorem encode_of_decodeNamed {op : OpName} {l : List Int} {i : Instr} (h : decodeNamed op l = some i) :
    encode i = .named op l := by
  revert h
  fun_cases decodeNamed op l with
  | case13 | case16 | case23 => rintro ⟨⟩
  | case15 k hk =>
    rintro ⟨⟩
    rw [encode, Int.toNat_of_nonneg hk]
  | case3 | case5 =>
    simp only [Option.bind_eq_bind, Option.bind_eq_some_iff, Option.some.injEq, operandBits_eq_some,
      operandPixels_eq_some]
    rintro ⟨_, rfl, rfl⟩
    rfl
  | case10 =>
    simp only [Option.bind_eq_bind, Option.bind_eq_some_iff, Option.some.injEq, operandBits_eq_some]
    rintro ⟨_, rfl, _, rfl, rfl⟩
    rfl
  | case4 | case17 =>
    simp only [Option.bind_eq_bind, Option.bind_eq_some_iff, Option.some.injEq, operandBits_eq_some]
    rintro ⟨_, rfl, _, rfl, _, rfl, rfl⟩
    rfl
  | _ => rintro ⟨⟩; rfl

/-- Settles O4: the codes by evaluation, and every operand by its reader. -/
theorem decodeInvertsEncode : Obligations.DecodeInvertsEncode := by
  intro i
  cases i with
  | tick p =>
    rw [encode, decode_coded_eq_ok, decodeCode, decodeIN, if_pos (codeOfPins_lt p), pinsOfCode_codeOfPins]
  | txFrame f => rw [encode, decode_named_eq_ok, decodeNamed, operandPixels_flatMap]; rfl
  | qdecGate d => cases d <;> rfl
  | txChan c => simp [encode, decode_named_eq_ok, decodeNamed, operandBits_bitsOperand]
  | txPixel p => simp [encode, decode_named_eq_ok, decodeNamed, pixelOperands, operandBits_bitsOperand]
  | qdecStep was is => simp [encode, decode_named_eq_ok, decodeNamed, operandBits_bitsOperand]
  | hueInit k => simp [encode, decode_named_eq_ok, decodeNamed]
  | hsv2rgb x => simp [encode, decode_named_eq_ok, decodeNamed, operandBits_bitsOperand]
  | _ => rfl

/-- Settles O5: an encoded operation is a code of a format or a name. -/
theorem encodeInvertsDecode : Obligations.EncodeInvertsDecode := by
  intro w i h
  cases w with
  | coded fmt bits => exact encode_of_decodeCode (decode_coded_eq_ok.1 h)
  | named op l => exact encode_of_decodeNamed (decode_named_eq_ok.1 h)

/-- Settles O6: the tables, evaluated. -/
theorem specWordsDecode : Obligations.SpecWordsDecode :=
  ⟨rfl, rfl, rfl, rfl, rfl, rfl, rfl, rfl, rfl, rfl⟩

/-- Two fields side by side as one number. -/
theorem toNat_append_eq_add {m n : Nat} (x : BitVec m) (y : BitVec n) : (x ++ y).toNat = x.toNat * 2 ^ n + y.toNat := by
  rw [BitVec.toNat_append, ← Nat.shiftLeft_add_eq_or_of_lt y.isLt, Nat.shiftLeft_eq]

/-- The packed record as a number, `H` on top (R100). -/
theorem pack_toNat (x : PixelHSV) : x.pack.toNat = x.h.toNat * 65536 + x.s.toNat * 256 + x.v.toNat := by
  simp only [PixelHSV.pack, toNat_append_eq_add]
  omega

/-- The three fields read back from the packed record (R100). -/
theorem unpack_pack (x : PixelHSV) : PixelHSV.unpack x.pack = x := by
  have hn := pack_toNat x
  obtain ⟨h, s, v⟩ := x
  simp only [PixelHSV.unpack, PixelHSV.mk.injEq, ← BitVec.toNat_inj, BitVec.extractLsb'_toNat,
    Nat.shiftRight_eq_div_pow, hn]
  omega

/-- The 32 bits written back from the three fields (R100). -/
theorem pack_unpack (w : BitVec 32) : (PixelHSV.unpack w).pack = w := by
  rw [← BitVec.toNat_inj, pack_toNat]
  simp only [PixelHSV.unpack, BitVec.extractLsb'_toNat, Nat.shiftRight_eq_div_pow]
  omega

/-- Settles O7: the packed number determines its three fields, and they determine it. -/
theorem storedRecordPacks : Obligations.StoredRecordPacks :=
  ⟨fun x => ⟨unpack_pack x, pack_toNat x⟩, pack_unpack⟩

end Sys2Proof

/-! ## The step and the queue's head (R105, R126) -/

namespace Sys2Proof.Machine

/-- Only a frame of another length than N cannot be passed (R126). -/
theorem wellFormed_iff {c : Cfg} {i : Instr} : i.wellFormed c = true ↔ ∀ f, i = .txFrame f → f.length = c.n := by
  cases i with
  | txFrame f => simp [Instr.wellFormed]
  | _ => simp [Instr.wellFormed]

/-- A queued word that decodes runs its operation, if that can be passed (log 31). -/
theorem step_decoded {s : State} {w : OpWord} {rest : List OpWord} {i : Instr} (hq : s.queue = w :: rest)
    (hd : decode w = .ok i) :
    step s = if i.wellFormed s.cfg then exec i { s with queue := rest } else .refused (.cannotBePassed i) := by
  rw [step_cons hq, runWord, hd]
  rfl

/-- A table word that stands for an operation is a word that decodes to it (log 10). -/
theorem decode_of_decodeTableWord {nbits w : Nat} {i : Instr} (h : decodeTableWord nbits w = some i) :
    decode (tableWord nbits w) = .ok i := by
  unfold decodeTableWord at h
  split at h
  next hd => cases h; exact hd
  next => cases h

/-- Settles O1: the word `withFetchWord` places is a queue's head like any other. -/
theorem stepRunsTheDecodedOperation : Obligations.StepRunsTheDecodedOperation := by
  constructor
  · intro s w rest i hq hd hi
    rw [step_decoded hq hd, if_pos hi]
  · intro s nbits w i hd hi
    have hq : (s.withFetchWord nbits w).queue = tableWord nbits w :: s.queue := rfl
    exact (step_decoded hq (decode_of_decodeTableWord hd)).trans (if_pos hi)

/-- Settles O2: a word that decodes is refused for its frame's length alone, and every operation completes. -/
theorem stepRefusesWhatIsNoOperation : Obligations.StepRefusesWhatIsNoOperation := by
  refine ⟨?_, ?_, ?_⟩
  · intro s w rest e hq hd
    rw [step_cons hq, runWord, hd]
  · intro s w rest f hq hd hf
    rw [step_decoded hq hd, if_neg]
    exact fun hwf => hf (wellFormed_iff.1 hwf f rfl)
  · intro s h
    cases hq : s.queue with
    | nil =>
      rw [step_nil hq, runLoop]
      split <;> exact exec_completes _ _
    | cons w rest =>
      obtain ⟨i, hd, hi⟩ := h w rest hq
      rw [step_decoded hq hd, if_pos (wellFormed_iff.2 hi)]
      exact exec_completes _ _

end Sys2Proof.Machine

/-! ## The wire format (R96, R97, R104) -/

namespace Sys2Proof.Machine

/-- One byte that is no pattern makes a sequence unreadable (R104). -/
theorem bitsOfBytes_of_mem {c : Cfg} {l : List Byte} {b : Byte} (hb : b ∈ l) (h : bitOfByte c b = none) :
    bitsOfBytes c l = none := by
  induction l with
  | nil => nomatch hb
  | cons a l ih =>
    rcases List.mem_cons.1 hb with rfl | hb
    · simp [bitsOfBytes, h]
    · simp [bitsOfBytes, ih hb]

/-- Settles O38: of a well-formed frame the bits are read back, and one byte that is no pattern spoils them all. -/
theorem decodeWireInvertsTheFrameFormat : Obligations.DecodeWireInvertsTheFrameFormat := by
  intro c hpat
  refine ⟨fun f hf => decodeWire_frameBytes hpat hf, fun l hl => if_pos hl, ?_⟩
  rintro l ⟨b, hb, hone, hzero⟩
  have hbit : bitOfByte c b = none := by simp [bitOfByte, hone, hzero]
  simp [decodeWire, bitsOfBytes_of_mem hb hbit]

/-- A frame's bytes stand pixel by pixel, 24 for each (R97). -/
theorem frameBytes_getElem? (c : Cfg) (f : List Pixel) (i : Nat) {j : Nat} (hj : j < 24) :
    (frameBytes c f)[24 * i + j]? = f[i]?.bind fun p => (pixelBytes c p)[j]? := by
  have hlen : ∀ p, (pixelBytes c p).length = 24 := fun p => by simp [pixelBytes]
  induction f generalizing i with
  | nil => rfl
  | cons p rest ih =>
    show (pixelBytes c p ++ frameBytes c rest)[24 * i + j]? = _
    cases i with
    | zero => simp [List.getElem?_append_left, hlen, hj]
    | succ i =>
      have hskip : 24 * (i + 1) + j - 24 = 24 * i + j := by omega
      rw [List.getElem?_append_right (by rw [hlen]; omega), hlen, hskip, ih]
      rfl

/-- Settles O37: pixel `i`'s bytes begin at `24·i`, and its byte `j` is the pattern of bit `23 - j`. -/
theorem frameBytePositions : Obligations.FrameBytePositions := by
  intro c f i j p hp hj
  rw [frameBytes_getElem? c f i hj, hp]
  simp [pixelBytes, hj, patternOf, Pixel.wireWord]

end Sys2Proof.Machine

/-! ## The transition codes (R93, R94, R150) -/

namespace Sys2Proof.Machine

open Sys2Proof.Claims

/-- The four values of a sample. -/
theorem sample_cases (q : Sample) : q = 0 ∨ q = 1 ∨ q = 2 ∨ q = 3 := by revert q; decide

/-- The code of each of the sixteen transitions selects the operation that absorbs it (R93, R94). -/
theorem decode_transitionCode (was is : Sample) :
    ∃ i, decode (.coded .QT (transitionCode was is).toNat) = .ok i ∧ ∀ s, exec i s = returnsRot (absorb was is s) := by
  rcases sample_cases was with rfl | rfl | rfl | rfl <;> rcases sample_cases is with rfl | rfl | rfl | rfl <;>
    exact ⟨_, rfl, fun _ => rfl⟩

/-- Settles O8: `QDEC.SAMPLE` absorbs the transition that its code selects. -/
theorem samplingIsItsTransitionCode : Obligations.SamplingIsItsTransitionCode := fun s =>
  let ⟨i, hd, hi⟩ := decode_transitionCode s.enc.was s.pins.sample
  ⟨i, hd, (hi s).symm⟩

/-- An operation that absorbs no change writes `enc.is` alone (R150). -/
theorem returnsRot_absorb_same (q : Sample) (s : State) :
    returnsRot (absorb q q s) = .next { s with enc := { s.enc with is := q }, out := .rot .none } := by
  rw [absorb_same]
  rfl

/-- An operation that absorbs an ignored transition writes both samples and nothing else (R94, R150). -/
theorem returnsRot_absorb_ignored {was is : Sample} (h : is ≠ was) (hz : qdecStep was is = .zero) (s : State) :
    returnsRot (absorb was is s) = .next { s with enc := { s.enc with is := is, was := is }, out := .rot .none } := by
  rw [absorb_ignored h hz]
  rfl

/-- Settles O9: each of the four absorbs a sample equal to its `was`. -/
theorem noChangeCodesWriteOnlyIs : Obligations.NoChangeCodesWriteOnlyIs := fun s =>
  ⟨returnsRot_absorb_same 0 s, returnsRot_absorb_same 1 s, returnsRot_absorb_same 2 s, returnsRot_absorb_same 3 s⟩

/-- Settles O10: each of the eight absorbs a transition of step 0. -/
theorem ignoredCodesOnlyAbsorb : Obligations.IgnoredCodesOnlyAbsorb := by
  intro s
  refine ⟨?_, ?_, ?_, ?_, ?_, ?_, ?_, ?_⟩ <;> exact returnsRot_absorb_ignored (by decide) (by decide) s

/-- The step a direction is counted as (R152, R153). -/
def stepOf : Dir → Step
  | .minus => .minus
  | .plus => .plus

/-- Equal samples take no step (R94). -/
theorem qdecStep_self (q : Sample) : qdecStep q q = .zero := by revert q; decide

/-- A counted transition, of either direction, is gated and absorbed (R150). -/
theorem absorb_counted {was is : Sample} {d : Dir} (hd : qdecStep was is = stepOf d) (s : State) :
    absorb was is s = ((qdecGate d s).1, ((qdecGate d (s.setIs is)).2).setWas is) := by
  have hne : is ≠ was := by
    rintro rfl
    rw [qdecStep_self] at hd
    cases d <;> cases hd
  cases d with
  | minus => exact absorb_minus hne hd s
  | plus => exact absorb_plus hne hd s

/-- The wrapped sum is the one number of `w` bits that differs from it by a multiple of `2 ^ w` (R153, R190). -/
theorem wrapAcc_wrapsTo {w : Nat} (hw : 1 ≤ w) (old : Int) (d : Dir) :
    WrapsTo w old d (wrapAcc w (old + d.toInt)) := by
  obtain ⟨hlow, hhigh⟩ := wrapAcc_range w hw (old + d.toInt)
  refine ⟨hlow, hhigh, -(old + d.toInt).bdiv (2 ^ w), ?_⟩
  rw [wrapAcc, Int.bmod_eq_self_sub_mul_bdiv]
  push_cast
  ring

/-- The parity test as a remainder (R153). -/
theorem accEven_iff {a : Int} : accEven a = true ↔ a % 2 = 0 := beq_iff_eq

/-- The gate's event, by parity and direction (R153). -/
theorem rotEventOf_accEven (d : Dir) (a : Int) : rotEventOf d (accEven a) = gatedEvent d a := by
  unfold gatedEvent
  split
  next h => rw [accEven_iff.2 h]; cases d <;> rfl
  next h => rw [Bool.eq_false_iff.2 (mt accEven_iff.1 h)]; rfl

/-- An operation that absorbs a counted transition takes its step (R150, R153). -/
theorem returnsRot_absorb_counted {s : State} (hw : 1 ≤ s.cfg.wAcc) {was is : Sample} {d : Dir}
    (hd : qdecStep was is = stepOf d) : Counted d is s (returnsRot (absorb was is s)) := by
  refine ⟨_, wrapAcc_wrapsTo hw s.enc.acc d, ?_⟩
  rw [absorb_counted hd, ← rotEventOf_accEven]
  rfl

/-- Settles O11: each of the four absorbs a transition the table counts. -/
theorem countedCodesTakeTheirStep : Obligations.CountedCodesTakeTheirStep := by
  intro s hw
  refine ⟨?_, ?_, ?_, ?_⟩ <;> exact returnsRot_absorb_counted hw rfl

end Sys2Proof.Machine

/-! ## Turning the knob (R106, R154) -/

namespace Sys2Proof.Machine

open Sys2Proof.Claims

/-- A transition the table ignores gives no event (R94, R150). -/
theorem absorb_event_of_zero {was is : Sample} (hz : qdecStep was is = .zero) (s : State) :
    (absorb was is s).1 = .none := by
  by_cases h : is = was
  · rw [h, absorb_same]
  · rw [absorb_ignored h hz]

/-- The sample read from the lines that present it (R92, R105). -/
theorem sample_ofLogical (q : Sample) (b : Bool) : (Pins.ofLogical q b).sample = q := by revert q b; decide

theorem tick_cfg (p : Pins) (s : State) : (tick p s).cfg = s.cfg := by
  obtain ⟨hcfg, _⟩ := tick_carried p s
  exact hcfg

/-- After a tick `enc.was` holds the sample the lines present (R105, R150). -/
theorem tick_was_ofLogical (q : Sample) (b : Bool) (s : State) : (tick (Pins.ofLogical q b) s).enc.was = q := by
  obtain ⟨_, hwas, _⟩ := tick_enc (Pins.ofLogical q b) s
  rw [hwas, sample_ofLogical]

/-- The accumulator after a tick is the one its sample leaves (R235). -/
theorem tick_acc (p : Pins) (s : State) :
    (tick p s).enc.acc = (absorb s.enc.was p.sample (s.setPins p)).2.enc.acc := by
  rw [tick_enc_eq, sampleAndRoute, route_enc, samplePhase]
  simp only [btnSample_state]
  rfl

/-- A tick routes the rotate event its sample gives (R235). -/
theorem tick_index_of_absorb (p : Pins) (s : State) :
    (tick p s).eng.highlightedIndex =
      (routeRot (absorb s.enc.was p.sample (s.setPins p)).1 s).eng.highlightedIndex :=
  tick_highlightedIndex p s

/-- What a turn of the knob depends on and moves: the sample last absorbed, the accumulator's parity, the highlighted
index. -/
structure KnobAt (c : Cfg) (q : Sample) (even : Bool) (i : Nat) (s : State) : Prop where
  cfg : s.cfg = c
  was : s.enc.was = q
  parity : accEven s.enc.acc = even
  index : s.eng.highlightedIndex = i

/-- One position in a direction (R64). -/
def turned : Dir → Nat → Nat → Nat
  | .minus => wrapdec
  | .plus => wrapinc

section Knob

variable {c : Cfg} {q r : Sample} {even : Bool} {i : Nat} {s : State} (h : KnobAt c q even i s) (b : Bool)

include h

/-- A tick whose transition the table ignores only takes its sample (R94, R235). -/
theorem KnobAt.tick_ignored (hz : qdecStep q r = .zero) : KnobAt c r even i (tick (Pins.ofLogical r b) s) where
  cfg := (tick_cfg _ s).trans h.cfg
  was := tick_was_ofLogical r b s
  parity := by
    rw [tick_acc, sample_ofLogical, h.was, absorb_acc_of_zero hz]
    exact h.parity
  index := by
    rw [tick_index_of_absorb, sample_ofLogical, h.was, absorb_event_of_zero hz]
    exact h.index

/-- A tick whose transition is counted turns the parity over, and moves the index when it has become even (R153, R220,
R221). -/
theorem KnobAt.tick_counted (hw : 1 ≤ c.wAcc) {d : Dir} (hd : qdecStep q r = stepOf d) :
    KnobAt c r (!even) (if even then i else turned d c.n i) (tick (Pins.ofLogical r b) s) where
  cfg := (tick_cfg _ s).trans h.cfg
  was := tick_was_ofLogical r b s
  parity := by
    rw [tick_acc, sample_ofLogical, h.was, absorb_counted hd, ← h.parity]
    exact accEven_gate s.cfg.wAcc (h.cfg ▸ hw) s.enc.acc d
  index := by
    rw [tick_index_of_absorb, sample_ofLogical, h.was, absorb_counted hd, qdecGate_eq, State.setPins_cfg,
      State.setPins_enc, accEven_gate s.cfg.wAcc (h.cfg ▸ hw), h.parity, ← h.index, ← h.cfg]
    cases even <;> cases d <;> rfl

end Knob

/-- What an operation returns is no part of the knob's. -/
theorem KnobAt.returns {c : Cfg} {q : Sample} {even : Bool} {i : Nat} {s : State} (h : KnobAt c q even i s)
    (r : OpResult) : KnobAt c q even i (s.returns r) := { h with }

/-- Four ticks from rest at 3 to rest at 3, the first and the last counted in one direction: the index moves one position
that way (R106, R154). -/
theorem KnobAt.detent {c : Cfg} {i : Nat} {s : State} (h : KnobAt c 3 true i s) (hw : 1 ≤ c.wAcc) (b : Bool) {d : Dir}
    {x y : Sample} (h3x : qdecStep 3 x = stepOf d) (hx0 : qdecStep x 0 = .zero) (h0y : qdecStep 0 y = .zero)
    (hy3 : qdecStep y 3 = stepOf d) :
    ∃ t, execAll ((tickLines b [x, 0, y, 3]).map Line.instr) s = .next t ∧ KnobAt c 3 true (turned d c.n i) t := by
  have h1 := (h.tick_counted b hw h3x).returns .nothing
  have h2 := (h1.tick_ignored b hx0).returns .nothing
  have h3 := (h2.tick_ignored b h0y).returns .nothing
  have h4 := (h3.tick_counted b hw hy3).returns .nothing
  exact ⟨_, rfl, h4⟩

/-- Settles O47: both detents are four such ticks. -/
theorem oneDetentMovesTheHighlight : Obligations.OneDetentMovesTheHighlight := by
  intro s b hw hi hwas hacc
  have h : KnobAt s.cfg 3 true s.eng.highlightedIndex s := ⟨rfl, hwas, accEven_iff.2 hacc, rfl⟩
  constructor
  · obtain ⟨t, ht, hk⟩ := h.detent hw b (d := .plus) (x := 1) (y := 2) rfl rfl rfl rfl
    exact ⟨t, ht, hk.index.trans (wrapinc_eq_mod hi), hk.was, accEven_iff.1 hk.parity⟩
  · obtain ⟨t, ht, hk⟩ := h.detent hw b (d := .minus) (x := 2) (y := 1) rfl rfl rfl rfl
    exact ⟨t, ht, hk.index.trans (wrapdec_eq_mod hi), hk.was, accEven_iff.1 hk.parity⟩

end Sys2Proof.Machine

/-! ## Programs and their pseudo-operations (R105, R106) -/

namespace Sys2Proof.Machine

open Sys2Proof.Claims

/-- A line that fixes the last samples alone decides what the pseudo-operations after it stand for (R106). -/
theorem expandsTo_of_line {l : Line} {m : LastSamples} (hl : ∀ m', LastSamples.line m' l = m) {x : List Pseudo}
    {ls : List Line} (hx : expandFrom m (x.map .pseudo) = ls) (p : List SourceLine) : ExpandsTo p l x ls := by
  unfold ExpandsTo expandProgram
  rw [expandFrom_append]
  show _ ++ l :: expandFrom (LastSamples.line _ l) _ = _
  rw [hl, hx]

/-- `IDLE` leaves the last samples as they are (R106). -/
theorem expandFrom_idle (m : LastSamples) (n : Nat) (rest : List SourceLine) :
    expandFrom m (.pseudo (.idle n) :: rest) = List.replicate n (.tick m.q m.btn) ++ expandFrom m rest := by
  simp only [expandFrom, SourceLine.expand, Pseudo.expand, LastSamples.lines_replicate]

/-- `IDLE` at the end of a program. -/
theorem expandFrom_idle_end (m : LastSamples) (n : Nat) :
    expandFrom m [.pseudo (.idle n)] = List.replicate n (.tick m.q m.btn) := by
  rw [expandFrom_idle]
  exact List.append_nil _

/-- Settles O59: each pseudo-operation is expanded from the line before it, and each `IDLE` from what the one before that
leaves. -/
theorem pseudoOperationsHoldTheLastSamples : Obligations.PseudoOperationsHoldTheLastSamples := by
  intro p q b n
  have htick {x ls} (h : _ = ls) := expandsTo_of_line (l := .tick q b) (m := ⟨q, b⟩) (x := x) (fun _ => rfl) h p
  have hinit {x ls} (h : _ = ls) := expandsTo_of_line (l := .init) (m := .start) (x := x) (fun _ => rfl) h p
  have hidle := expandFrom_idle_end
  refine ⟨htick (hidle _ n), htick ?up, htick ?down, htick ?press, htick ?release, htick ?idle, hinit (hidle _ n),
    hinit rfl, hinit rfl, hinit rfl, hinit rfl⟩
  case up => exact congrArg (tickLines b [1, 0, 2, 3] ++ ·) (hidle ⟨3, b⟩ n)
  case down => exact congrArg (tickLines b [2, 0, 1, 3] ++ ·) (hidle ⟨3, b⟩ n)
  case press => exact congrArg (Line.tick q true :: ·) (hidle ⟨q, true⟩ n)
  case release => exact congrArg (Line.tick q false :: ·) (hidle ⟨q, false⟩ n)
  case idle => exact expandFrom_idle ⟨q, b⟩ n [.pseudo .release]

end Sys2Proof.Machine

/-! ## The bits on the line (R95, R96, R103, R132) -/

namespace Sys2Proof.Machine

open Sys2Proof.Claims

/-- Each shift drives the register's next lower bit: up to eight of them read it from bit 7 down (R132). -/
theorem shiftLevels_eq {k : Nat} (hk : k ≤ 8) (d : DriverState) :
    DriverState.shiftLevels k d = (List.range k).map fun j => d.sr.getLsbD (7 - j) := by
  induction k generalizing d with
  | zero => rfl
  | succ k ih =>
    have hbit : ∀ j < k, (d.sr <<< 1).getLsbD (7 - j) = d.sr.getLsbD (7 - (j + 1)) := by
      intro j hj
      have hpos : 1 ≤ 7 - j := by omega
      have hlt : 7 - j < 8 := by omega
      rw [BitVec.getLsbD_shiftLeft, Nat.sub_sub]
      simp [hlt, Nat.not_lt.2 hpos]
    rw [List.range_succ_eq_map, List.map_cons, List.map_map]
    refine congrArg (d.sr.getLsbD 7 :: ·) ((ih (by omega) d.shift).trans (List.map_congr_left fun j hj => ?_))
    exact hbit j (List.mem_range.1 hj)

/-- Settles O32: the register is read from the top, one bit a shift, and eight shifts empty it. -/
theorem shiftRegisterSendsMsbFirst : Obligations.ShiftRegisterSendsMsbFirst := fun b d =>
  ⟨shiftLevels_eq (Nat.le_refl 8) (d.load b), shifts_load b d⟩

/-- Settles O31: `TX.BIT` as a whole, for either bit. -/
theorem txBitEmitsItsPattern : Obligations.TxBitEmitsItsPattern := by
  intro s
  have hsent b : (txBit b s).returns .nothing = _ := congrArg (State.returns .nothing) (txBit_eq b s)
  exact ⟨congrArg Host.Outcome.next (hsent true), congrArg Host.Outcome.next (hsent false)⟩

/-- Settles O36: each of the three is one symbol and one driver field, by the definition of the writes. -/
theorem showAndMaskEffects : Obligations.ShowAndMaskEffects := fun _ => ⟨rfl, rfl, rfl⟩

/-- The symbols of logical bits are the `Byte`s of their patterns (R95). -/
theorem bitSyms_eq (c : Cfg) (l : List Bool) : bitSyms c l = (l.map (patternOf c)).map .byte :=
  (List.map_map ..).symm

/-- A pixel's bytes are the patterns of its wire word's bits (R96). -/
theorem pixelBytes_eq_wireBits (c : Cfg) (p : Pixel) : pixelBytes c p = (wireBits p).map (patternOf c) := by
  rw [wireBits, List.map_map]
  rfl

/-- A frame's bytes are the patterns of its pixels' wire words (R97). -/
theorem bytes_frameBytes (c : Cfg) (f : List Pixel) : (frameBytes c f).map .byte = bitSyms c (f.flatMap wireBits) := by
  rw [bitSyms_eq, List.map_flatMap]
  exact congrArg (fun g => (f.flatMap g).map Sym.byte) (funext (pixelBytes_eq_wireBits c))

/-- Black pixels are zero bits (R65, R122). -/
theorem wireBits_black (n : Nat) :
    (List.replicate n Pixel.black).flatMap wireBits = List.replicate (24 * n) false := by
  have hblack : wireBits Pixel.black = List.replicate 24 false := by decide
  rw [List.flatMap_replicate, hblack, List.flatten_replicate_replicate, Nat.mul_comm]

/-- What a sending of logical bits leaves when its operation has returned. -/
theorem Sends.returns_nothing {s t : State} {l : List Bool} (h : Sends s (l.map (patternOf s.cfg)) t) :
    t.returns .nothing = { s with drv := t.drv, wire := s.wire ++ bitSyms s.cfg l, out := .nothing } := by
  rw [bitSyms_eq]
  exact congrArg (State.returns .nothing) h.state

/-- Settles O33: a channel sends its bits from bit 7 down, a pixel its wire word from bit 23 down. -/
theorem channelAndPixelOnTheWire : Obligations.ChannelAndPixelOnTheWire := by
  constructor
  · intro s c
    have hsent := txChan_sends c s
    exact ⟨_, rfl, hsent.irqMask, hsent.returns_nothing⟩
  · intro s p
    have hsent := pixelBytes_eq_wireBits s.cfg p ▸ txPixel_sends p s
    exact ⟨_, rfl, hsent.irqMask, hsent.returns_nothing⟩

/-- What the sending of a frame or a blank leaves when its operation has returned. -/
theorem FrameSent.returns_nothing {s t : State} {l : List Sym} (h : FrameSent s l t) :
    t.returns .nothing = { s with drv := t.drv, wire := s.wire ++ l, fresh := t.fresh, out := .nothing } := by
  rw [h.state]
  rfl

/-- Settles O34: a frame's symbols are its bits in the bracket and the latching gap. -/
theorem txFrameEffect : Obligations.TxFrameEffect := by
  intro s f _
  have hsent := txFrame_spec f s
  refine ⟨_, rfl, hsent.irqMask, hsent.pixOut, ?_⟩
  rw [hsent.returns_nothing, frameSyms, bytes_frameBytes, List.append_assoc]

/-- Settles O35: the blank is N black pixels, all zero bits, and `INIT` adds the boot bit to it. -/
theorem initSendsTheBlank : Obligations.InitSendsTheBlank := by
  intro s wire'
  have hsent := blank_spec s
  have hwire : s.wire ++ blankSyms s.cfg = wire' := by
    rw [blankSyms, bytes_frameBytes, wireBits_black, ← List.append_assoc]
  have hblank := hwire ▸ hsent.returns_nothing
  exact ⟨⟨_, rfl, hsent.irqMask, hblank⟩,
    ⟨_, rfl, hsent.irqMask, congrArg (fun t : State => { t with initDone := true }) hblank⟩⟩

end Sys2Proof.Machine

/-! ## What a frame is on the line (R127, R131) -/

namespace Sys2Proof.Machine

/-- Bytes drive eight levels each (R103). -/
theorem length_levels_bytes (l : List Byte) : ((l.map Sym.byte).flatMap Sym.levels).length = 8 * l.length := by
  induction l with
  | nil => rfl
  | cons b l ih =>
    rw [List.map_cons, List.flatMap_cons, List.length_append, ih, List.length_cons, Nat.mul_succ, Nat.add_comm]
    rfl

/-- Mask symbols and gaps drive no level: a frame's levels are its bytes' (R103, R131). -/
theorem levels_frameSyms (c : Cfg) (f : List Pixel) :
    (frameSyms c f).flatMap Sym.levels = ((frameBytes c f).map Sym.byte).flatMap Sym.levels := by
  simp [frameSyms, Sym.levels]

/-- Settles O39: `DecodeWire` tells two frames apart by their bytes; the lengths do not depend on the colours. -/
theorem framesDifferOnTheWire : Obligations.FramesDifferOnTheWire := by
  intro c hpat f g hf hg
  have hlen : (frameBytes c f).length = 24 * c.n := by rw [length_frameBytes, hf]
  refine ⟨fun hne heq => hne ?_, hlen, ?_⟩
  · have hdecoded : some f = some g :=
      calc some f = decodeWire c (frameBytes c f) := (decodeWire_frameBytes hpat hf).symm
        _ = decodeWire c (frameBytes c g) := by rw [heq]
        _ = some g := decodeWire_frameBytes hpat hg
    exact Option.some.inj hdecoded
  · rw [levels_frameSyms, length_levels_bytes, hlen]
    omega

/-- A bracketed segment sent keeps the trace bracketed and leaves interrupts enabled (R127). -/
theorem FrameSent.keeps_bracketed {s t : State} {l : List Sym} (h : FrameSent s l t) (hs : bracketed s.wire = true)
    (hl : bracketed l = true) : bracketed t.wire = true ∧ t.drv.irqMask = false :=
  ⟨h.wire_eq ▸ bracketed_append hs hl, h.irqMask⟩

/-- Settles O40: a frame and the blank are bracketed segments, and a tick sends a frame or nothing. -/
theorem framesStandInBrackets : Obligations.FramesStandInBrackets := by
  intro s t hs
  constructor
  · have hblank := (blank_spec s).keeps_bracketed hs (bracketed_blankSyms s.cfg)
    rintro i (rfl | rfl | ⟨f, rfl⟩) h
    · cases h; exact hblank
    · cases h; exact hblank
    · cases h; exact (txFrame_spec f s).keeps_bracketed hs (bracketed_frameSyms s.cfg f)
  · intro p h
    cases h
    rcases tick_wire p s with ⟨hwire, hdrv⟩ | ⟨f, _, hwire, hmask⟩
    · exact ⟨(congrArg bracketed hwire).trans hs, .inr ⟨hwire, hdrv⟩⟩
    · exact ⟨(congrArg bracketed hwire).trans (bracketed_append hs (bracketed_frameSyms s.cfg f)), .inl hmask⟩

end Sys2Proof.Machine

/-! ## The decoder's operations (R150, R152, R153, R155) -/

namespace Sys2Proof.Machine

open Sys2Proof.Claims

/-- The transition table as a case distinction (R94, R152). -/
theorem qdecStep_eq_table (was is : Sample) :
    qdecStep was is =
      if (was, is) = (3, 2) ∨ (was, is) = (1, 3) then .minus
      else if (was, is) = (3, 1) ∨ (was, is) = (2, 3) then .plus
      else .zero := by
  revert was is; decide

/-- Settles O13: differing samples get the table's entry. -/
theorem qdecStepIsTheTable : Obligations.QdecStepIsTheTable := by
  intro s was is hne
  show execQdecStep was is s = _
  rw [execQdecStep, if_neg hne, qdecStep_eq_table]
  rfl

/-- The sample is the number its inverted lines write (R92). -/
theorem Pins.sample_toNat (p : Pins) : p.sample.toNat = (!p.encA).toNat * 2 + (!p.encB).toNat := by
  rw [Pins.sample, toNat_append_eq_add, BitVec.toNat_ofBool, BitVec.toNat_ofBool, pow_one]

/-- `QDEC.SAMPLE` absorbs the transition from `enc.was` to what the lines present (R150). -/
theorem exec_qdecSample {s : State} {q : Sample} (hq : s.pins.sample = q) :
    exec .qdecSample s = returnsRot (absorb s.enc.was q s) := hq ▸ rfl

/-- Settles O12: the sample is absorbed as its transition's entry in the table says. -/
theorem qdecSampleEffect : Obligations.QdecSampleEffect := by
  intro s hw q hq
  rw [exec_qdecSample (BitVec.eq_of_toNat_eq (hq ▸ Pins.sample_toNat s.pins))]
  refine ⟨?same, ?ignored, ?minus, ?plus⟩
  case same =>
    rintro rfl
    exact returnsRot_absorb_same _ s
  case ignored =>
    intro hne hnot
    simp only [List.mem_cons, List.not_mem_nil, or_false, not_or] at hnot
    obtain ⟨h32, h13, h31, h23⟩ := hnot
    refine returnsRot_absorb_ignored hne ?_ s
    rw [qdecStep_eq_table, if_neg (not_or.2 ⟨h32, h13⟩), if_neg (not_or.2 ⟨h31, h23⟩)]
  case minus =>
    intro hmem
    refine returnsRot_absorb_counted hw ?_
    rw [qdecStep_eq_table, if_pos (List.mem_pair.1 hmem), stepOf]
  case plus =>
    intro hmem
    refine returnsRot_absorb_counted hw ?_
    have hnot : ¬((s.enc.was, q) = (3, 2) ∨ (s.enc.was, q) = (1, 3)) := by
      rcases List.mem_pair.1 hmem with h | h <;> rw [h] <;> decide
    rw [qdecStep_eq_table, if_neg hnot, if_pos (List.mem_pair.1 hmem), stepOf]

/-- Settles O14: the gate wraps the sum and gives the event of its parity. -/
theorem qdecGateEffect : Obligations.QdecGateEffect := by
  intro s d hw
  refine ⟨_, wrapAcc_wrapsTo hw s.enc.acc d, ?_⟩
  rw [← rotEventOf_accEven]
  rfl

/-- A direction's event is silent exactly on an odd accumulator (R153). -/
theorem rotEventOf_eq_none {d : Dir} {even : Bool} : rotEventOf d even = .none ↔ even = false := by
  cases even <;> cases d <;> simp [rotEventOf]

/-- A gated step turns the accumulator's parity over and is silent exactly when it has become odd (R153). -/
theorem gate_parity_and_silence {s t : State} {d : Dir} (hw : 1 ≤ s.cfg.wAcc) (h : exec (.qdecGate d) s = .next t) :
    accEven t.enc.acc = (!accEven s.enc.acc) ∧ (t.out = .rot .none ↔ accEven t.enc.acc = false) := by
  cases h
  rw [qdecGate_eq]
  exact ⟨accEven_gate _ hw _ d, by simp [rotEventOf_eq_none]⟩

/-- Settles O15: two steps turn the parity over twice, so exactly one of them leaves it odd. -/
theorem everySecondStepEmits : Obligations.EverySecondStepEmits := by
  intro s t u d e hw hd he
  have hcfg : t.cfg = s.cfg := by cases hd; rfl
  obtain ⟨-, hfirst⟩ := gate_parity_and_silence hw hd
  obtain ⟨hparity, hsecond⟩ := gate_parity_and_silence (hcfg ▸ hw) he
  rw [Ne, Ne, hfirst, hsecond, hparity]
  cases accEven t.enc.acc <;> simp

/-- The button's event, by its change and its level (R155). -/
theorem btnSample_event (s : State) :
    (btnSample s).1 = if s.pins.pressed = s.enc.buttonLast then .none else edgeEvent s.pins.pressed := by
  split
  next h => rw [btnSample_same h]
  next h => rw [btnSample_edge h]

/-- A change to pressed is `down`, a change to released is `up`; the line is low when pressed (R92, R155). -/
theorem edgeEvent_not (level : Bool) : edgeEvent (!level) = if level then .up else .down := by
  cases level <;> rfl

/-- Settles O17: an unchanged button writes one register, a changed one both. -/
theorem btnSampleEffect : Obligations.BtnSampleEffect := by
  intro s
  have hexec : exec .btnSample s = .next ((btnSample s).2.returns (.btn (btnSample s).1)) := rfl
  constructor
  · intro hsame
    rw [hexec, btnSample_same hsame]
    rfl
  · intro hedge
    rw [hexec, btnSample_edge hedge, ← edgeEvent_not]
    rfl

end Sys2Proof.Machine

/-! ## One detent, one event (R154) -/

namespace Sys2Proof.Machine

open Sys2Proof.Claims

section Knob

variable {c : Cfg} {q r : Sample} {even : Bool} {i : Nat} {s : State} (h : KnobAt c q even i s) (b : Bool)

/-- A presented sample is absorbed from `enc.was` (R105, R150). -/
theorem exec_qdecSample_present (r : Sample) (s : State) :
    exec .qdecSample (present r b s) = returnsRot (absorb s.enc.was r (present r b s)) :=
  exec_qdecSample (sample_ofLogical r b)

include h

/-- A presented sample completes with the event its absorption gives, and the knob is at the sample with the parity its
absorption leaves (R150). -/
theorem KnobAt.sampled {even' : Bool} (hparity : accEven (absorb q r (present r b s)).2.enc.acc = even') :
    ∃ t, exec .qdecSample (present r b s) = .next t ∧ t.out = .rot (absorb q r (present r b s)).1 ∧
      KnobAt c r even' i t := by
  obtain ⟨hcfg, rfl, -, hindex⟩ := h
  refine ⟨_, exec_qdecSample_present b r s, rfl, KnobAt.returns ⟨?_, absorb_was r (present r b s), hparity, ?_⟩ _⟩
  · exact (absorb_cfg ..).trans hcfg
  · exact (congrArg EngineState.highlightedIndex (absorb_eng ..)).trans hindex

/-- A sample whose transition the table ignores gives no event and keeps the parity (R94, R150). -/
theorem KnobAt.sample_ignored (hz : qdecStep q r = .zero) :
    ∃ t, exec .qdecSample (present r b s) = .next t ∧ t.out = .rot .none ∧ KnobAt c r even i t := by
  have hsampled := h.sampled b ((congrArg accEven (absorb_acc_of_zero hz _)).trans h.parity)
  rwa [absorb_event_of_zero hz] at hsampled

/-- A sample whose transition is counted turns the parity over, and gives its direction's event when it has become even
(R150, R153). -/
theorem KnobAt.sample_counted (hw : 1 ≤ c.wAcc) {d : Dir} (hd : qdecStep q r = stepOf d) :
    ∃ t, exec .qdecSample (present r b s) = .next t ∧ t.out = .rot (rotEventOf d (!even)) ∧
      KnobAt c r (!even) i t := by
  have hparity : accEven (wrapAcc s.cfg.wAcc (s.enc.acc + d.toInt)) = !even := by
    rw [accEven_gate _ (h.cfg ▸ hw), h.parity]
  have habsorb := absorb_counted hd (present r b s)
  have hsampled := h.sampled b (r := r) (even' := !even) (by rw [habsorb]; exact hparity)
  have hevent : (absorb q r (present r b s)).1 = rotEventOf d (!even) := by rw [habsorb, ← hparity]; rfl
  rwa [hevent] at hsampled

end Knob

/-- Four samples from rest at 3 to rest at 3, the first and the last counted in one direction: the last alone gives an
event, that direction's (R154). -/
theorem KnobAt.detent_events {c : Cfg} {i : Nat} {s : State} (h : KnobAt c 3 true i s) (hw : 1 ≤ c.wAcc) (b : Bool)
    {d : Dir} {x y : Sample} (h3x : qdecStep 3 x = stepOf d) (hx0 : qdecStep x 0 = .zero)
    (h0y : qdecStep 0 y = .zero) (hy3 : qdecStep y 3 = stepOf d) :
    ∃ t₁ t₂ t₃ t₄, exec .qdecSample (present x b s) = .next t₁ ∧ exec .qdecSample (present 0 b t₁) = .next t₂ ∧
      exec .qdecSample (present y b t₂) = .next t₃ ∧ exec .qdecSample (present 3 b t₃) = .next t₄ ∧
      t₁.out = .rot .none ∧ t₂.out = .rot .none ∧ t₃.out = .rot .none ∧ t₄.out = .rot (rotEventOf d true) ∧
      t₄.enc.was = 3 ∧ t₄.enc.acc % 2 = 0 := by
  obtain ⟨t₁, he₁, ho₁, hk₁⟩ := h.sample_counted b hw h3x
  obtain ⟨t₂, he₂, ho₂, hk₂⟩ := hk₁.sample_ignored b hx0
  obtain ⟨t₃, he₃, ho₃, hk₃⟩ := hk₂.sample_ignored b h0y
  obtain ⟨t₄, he₄, ho₄, hk₄⟩ := hk₃.sample_counted b hw hy3
  exact ⟨t₁, t₂, t₃, t₄, he₁, he₂, he₃, he₄, ho₁, ho₂, ho₃, ho₄, hk₄.was, accEven_iff.1 hk₄.parity⟩

/-- Settles O16: both walks are such detents. -/
theorem oneDetentOneEvent : Obligations.OneDetentOneEvent := by
  intro s b hw hwas hacc
  have h : KnobAt s.cfg 3 true s.eng.highlightedIndex s := ⟨rfl, hwas, accEven_iff.2 hacc, rfl⟩
  exact ⟨h.detent_events hw b (d := .plus) rfl rfl rfl rfl,
    h.detent_events hw b (d := .minus) rfl rfl rfl rfl⟩

end Sys2Proof.Machine

/-! ## The two halves of the decoder (R157) -/

namespace Sys2Proof.Machine

/-- What `BTN.SAMPLE` leaves when it returns `e` on a line that reads `now` (R155). -/
def State.afterButton (now : Bool) (e : BtnEvent) (s : State) : State :=
  ((s.setButtonNow now).setButtonLast now).returns (.btn e)

/-- `BTN.SAMPLE` as its writes (R155). -/
theorem exec_btnSample (s : State) :
    exec .btnSample s = .next (s.afterButton s.pins.pressed (btnSample s).1) :=
  congrArg (fun t : State => Host.Outcome.next (t.returns (.btn (btnSample s).1))) (btnSample_state s)

/-- `BTN.SAMPLE` depends on its line and its last sample alone (R155, R157). -/
theorem exec_btnSample_congr {s t : State} (hpins : t.pins = s.pins) (hlast : t.enc.buttonLast = s.enc.buttonLast) :
    exec .btnSample t = .next (t.afterButton s.pins.pressed (btnSample s).1) := by
  rw [exec_btnSample, btnSample_event, btnSample_event, hpins, hlast]

/-- The rotation half neither reads nor writes what the button half leaves (R157). -/
theorem absorb_afterButton (was is : Sample) (now : Bool) (e : BtnEvent) (s : State) :
    absorb was is (s.afterButton now e) = ((absorb was is s).1, (absorb was is s).2.afterButton now e) := by
  unfold absorb
  split
  · rfl
  · cases qdecStep was is <;> rfl

/-- `QDEC.SAMPLE` after the button half returns the same event and leaves the same but for the button's writes (R157). -/
theorem exec_qdecSample_afterButton (now : Bool) (e : BtnEvent) (s : State) :
    exec .qdecSample (s.afterButton now e) =
      .next (((qdecSample s).2.afterButton now e).returns (.rot (qdecSample s).1)) :=
  congrArg returnsRot (absorb_afterButton s.enc.was s.pins.sample now e s)

/-- Settles O18: the rotation half leaves what the button half reads, and commutes with what that half writes. -/
theorem decoderHalvesCommute : Obligations.DecoderHalvesCommute := by
  intro s
  have hpins : (qdecSample s).2.pins = s.pins := by rw [qdecSample_frame]
  obtain ⟨_, hlast⟩ := absorb_button s.enc.was s.pins.sample s
  exact ⟨_, _, _, _, rfl, exec_btnSample_congr hpins hlast, exec_btnSample s, exec_qdecSample_afterButton _ _ s,
    rfl, rfl, rfl⟩

end Sys2Proof.Machine

/-! ## The colour conversion (R182 to R184) -/

namespace Sys2Proof

/-- R184's `q` at depth 0 is the value itself. -/
theorem hsvQ_zero (s v : Nat) : hsvQ s v 0 = v := by simp [hsvQ]

/-- R184's `q` at depth 256, the whole of a sector, is its `p`. -/
theorem hsvQ_full (s v : Nat) : hsvQ s v 256 = hsvP s v := by
  rw [hsvQ, hsvP, show 65280 = 255 * 256 from rfl, ← Nat.sub_mul, ← Nat.mul_assoc,
    Nat.mul_div_mul_right _ _ (by decide)]

/-- R184's `t` is its `q` read from the sector's far end. -/
theorem hsvT_eq_hsvQ (s v f : Nat) : hsvT s v f = hsvQ s v (256 - f) := rfl

theorem hsvQ_le_of_depth_le (s v : Nat) {f g : Nat} (h : f ≤ g) : hsvQ s v g ≤ hsvQ s v f := by
  unfold hsvQ; gcongr

theorem hsvQ_le_of_value_le (s f : Nat) {v w : Nat} (h : v ≤ w) : hsvQ s v f ≤ hsvQ s w f := by
  unfold hsvQ; gcongr

/-- "every channel fits 8 bits" (R184): a depth only takes away from `v`. -/
theorem toNat_channelValue_hsvQ (s v : Byte) (f : Nat) :
    (channelValue (hsvQ s.toNat v.toNat f)).toNat = hsvQ s.toNat v.toNat f := by
  have hle : hsvQ s.toNat v.toNat f ≤ v.toNat := (hsvQ_le_of_depth_le _ _ f.zero_le).trans_eq (hsvQ_zero _ _)
  rw [channelValue, BitVec.toNat_ofNat, Nat.mod_eq_of_lt (hle.trans_lt v.isLt)]

/-- The channel that stands at `v` throughout sector `k` (R184). -/
def topChannel : Nat → Channel
  | 0 | 5 => .r
  | 1 | 2 => .g
  | _ => .b

/-- The channel that stands at `p` throughout sector `k` (R184). -/
def bottomChannel : Nat → Channel
  | 0 | 1 => .b
  | 2 | 3 => .r
  | _ => .g

/-- The channel that moves between the two in sector `k` (R184). -/
def movingChannel : Nat → Channel
  | 0 | 3 => .g
  | 1 | 4 => .r
  | _ => .b

theorem sector_channels_distinct {k : Nat} (hk : k < 6) :
    topChannel k ≠ bottomChannel k ∧ topChannel k ≠ movingChannel k ∧ bottomChannel k ≠ movingChannel k := by
  revert k; decide

/-- How deep below `v` a channel stands at a hue: 0 at the top, 256 at the bottom; the moving channel rises through the
even sectors (R184's `t`) and falls through the odd ones (its `q`). -/
def hueDepth (h : Nat) (c : Channel) : Nat :=
  if c = topChannel (h / 256) then 0
  else if c = bottomChannel (h / 256) then 256
  else if h / 256 % 2 = 0 then 256 - h % 256
  else h % 256

theorem hueDepth_le (h : Nat) (c : Channel) : hueDepth h c ≤ 256 := by unfold hueDepth; split_ifs <;> omega

theorem hueDepth_top (h : Nat) : hueDepth h (topChannel (h / 256)) = 0 := if_pos rfl

theorem hueDepth_bottom {h : Nat} (hh : h ≤ 1535) : hueDepth h (bottomChannel (h / 256)) = 256 := by
  obtain ⟨htb, _, _⟩ := sector_channels_distinct (k := h / 256) (by omega)
  rw [hueDepth, if_neg htb.symm, if_pos rfl]

theorem hueDepth_moving {h : Nat} (hh : h ≤ 1535) :
    hueDepth h (movingChannel (h / 256)) = if h / 256 % 2 = 0 then 256 - h % 256 else h % 256 := by
  obtain ⟨_, htm, hbm⟩ := sector_channels_distinct (k := h / 256) (by omega)
  rw [hueDepth, if_neg htm.symm, if_neg hbm.symm]

/-- The six sectors of the legal hues (R184). -/
theorem sector_cases {h : Nat} (hh : h ≤ 1535) :
    h / 256 = 0 ∨ h / 256 = 1 ∨ h / 256 = 2 ∨ h / 256 = 3 ∨ h / 256 = 4 ∨ h / 256 = 5 := by
  omega

/-- Every channel of the reference conversion is R184's `q` at the channel's depth: the one formula behind `v`, `p`, `q`
and `t`. -/
theorem hsv2rgbRef_channel {h : Hue} (hh : h.toNat ≤ 1535) (s v : Byte) (c : Channel) :
    (hsv2rgbRef h s v).channel c = channelValue (hsvQ s.toNat v.toNat (hueDepth h.toNat c)) := by
  have htop : channelValue (hsvQ s.toNat v.toNat 0) = v := by rw [hsvQ_zero]; simp [channelValue]
  rcases sector_cases hh with hk | hk | hk | hk | hk | hk <;> cases c <;>
    simp [hsv2rgbRef, hueDepth, topChannel, bottomChannel, hk, Pixel.channel, htop, hsvQ_full, hsvT_eq_hsvQ]

/-- A channel of the reference conversion as an exact natural (R184, R190). -/
theorem hsv2rgbRef_channel_toNat {h : Hue} (hh : h.toNat ≤ 1535) (s v : Byte) (c : Channel) :
    ((hsv2rgbRef h s v).channel c).toNat = hsvQ s.toNat v.toNat (hueDepth h.toNat c) := by
  rw [hsv2rgbRef_channel hh, toNat_channelValue_hsvQ]

/-- The deeper channel is the darker, at one hue or at two (R183 P5). -/
theorem hsv2rgbRef_channel_le_of_depth {h h' : Hue} (hh : h.toNat ≤ 1535) (hh' : h'.toNat ≤ 1535) (s v : Byte)
    {c c' : Channel} (hd : hueDepth h'.toNat c' ≤ hueDepth h.toNat c) :
    (hsv2rgbRef h s v).channel c ≤ (hsv2rgbRef h' s v).channel c' := by
  rw [BitVec.le_def, hsv2rgbRef_channel_toNat hh, hsv2rgbRef_channel_toNat hh']
  exact hsvQ_le_of_depth_le _ _ hd

/-- A brighter value dims no channel (R183 P3). -/
theorem hsv2rgbRef_channel_le_of_value {h : Hue} (hh : h.toNat ≤ 1535) (s : Byte) {v w : Byte} (hvw : v ≤ w)
    (c : Channel) : (hsv2rgbRef h s v).channel c ≤ (hsv2rgbRef h s w).channel c := by
  rw [BitVec.le_def, hsv2rgbRef_channel_toNat hh, hsv2rgbRef_channel_toNat hh]
  exact hsvQ_le_of_value_le _ _ (BitVec.le_def.1 hvw)

/-- A pixel whose three channels are one value is that grey. -/
theorem Pixel.eq_grey {p : Pixel} {x : Byte} (h : ∀ c, p.channel c = x) : p = ⟨x, x, x⟩ := by
  obtain ⟨r, g, b⟩ := p
  exact congr (congr (congrArg Pixel.mk (h .r)) (h .g)) (h .b)

/-- Without saturation the reference conversion gives the value in each channel (R183 P2). -/
theorem hsv2rgbRef_grey {h : Hue} (hh : h.toNat ≤ 1535) (v : Byte) : hsv2rgbRef h 0 v = ⟨v, v, v⟩ :=
  Pixel.eq_grey fun c => by
    rw [← BitVec.toNat_inj, hsv2rgbRef_channel_toNat hh]
    simp [hsvQ]

/-- At value 0 the reference conversion gives black (R183 P3). -/
theorem hsv2rgbRef_black {h : Hue} (hh : h.toNat ≤ 1535) (s : Byte) : hsv2rgbRef h s 0 = Pixel.black :=
  Pixel.eq_grey fun c => by
    rw [← BitVec.toNat_inj, hsv2rgbRef_channel_toNat hh]
    simp [hsvQ]

theorem hsv2rgbRef_monotoneInV : HsvMonotoneInV hsv2rgbRef := fun _ s hh =>
  ⟨hsv2rgbRef_black hh s, fun _ _ hvw =>
    have hle := hsv2rgbRef_channel_le_of_value hh s hvw
    ⟨hle .r, hle .g, hle .b⟩⟩

/-- The six colours, evaluated (R183 P4). -/
theorem hsv2rgbRef_placement : HsvPlacement hsv2rgbRef := by unfold HsvPlacement; decide

/-- In a sector the top and the bottom channel keep their depths, and the moving one's goes one way (R183 P5). -/
theorem hsv2rgbRef_piecewise : HsvPiecewise hsv2rgbRef := by
  intro k s v hk
  obtain ⟨htb, htm, hbm⟩ := sector_channels_distinct hk
  have hlegal {h : Hue} (hh : h.toNat / 256 = k) : h.toNat ≤ 1535 := by omega
  have htop {h : Hue} (hh : h.toNat / 256 = k) : hueDepth h.toNat (topChannel k) = 0 := hh ▸ hueDepth_top _
  have hbottom {h : Hue} (hh : h.toNat / 256 = k) : hueDepth h.toNat (bottomChannel k) = 256 :=
    hh ▸ hueDepth_bottom (hlegal hh)
  have hmoving {h : Hue} (hh : h.toNat / 256 = k) :
      hueDepth h.toNat (movingChannel k) = if k % 2 = 0 then 256 - h.toNat % 256 else h.toNat % 256 :=
    hh ▸ hueDepth_moving (hlegal hh)
  refine ⟨topChannel k, bottomChannel k, movingChannel k, channelValue (hsvQ s.toNat v.toNat 0),
    channelValue (hsvQ s.toNat v.toNat 256), htb, htm, hbm, ?between, ?monotone⟩
  case between =>
    intro h hh
    rw [← htop hh, ← hbottom hh, ← hsv2rgbRef_channel (hlegal hh), ← hsv2rgbRef_channel (hlegal hh)]
    refine ⟨rfl, rfl, ?_, ?_⟩ <;> apply hsv2rgbRef_channel_le_of_depth (hlegal hh) (hlegal hh)
    · rw [hbottom hh]; exact hueDepth_le _ _
    · rw [htop hh]; exact Nat.zero_le _
  case monotone =>
    by_cases heven : k % 2 = 0
    · refine .inl fun h h' hh hh' hle => hsv2rgbRef_channel_le_of_depth (hlegal hh) (hlegal hh') s v ?_
      rw [hmoving hh, hmoving hh', if_pos heven, if_pos heven]
      have := BitVec.le_def.1 hle
      omega
    · refine .inr fun h h' hh hh' hle => hsv2rgbRef_channel_le_of_depth (hlegal hh') (hlegal hh) s v ?_
      rw [hmoving hh, hmoving hh', if_neg heven, if_neg heven]
      have := BitVec.le_def.1 hle
      omega

/-- Settles O25: each channel is one formula in its depth, which only takes away. -/
theorem referenceConversionMeetsItsProperties : Obligations.ReferenceConversionMeetsItsProperties :=
  ⟨fun _ v hh => ⟨v, hsv2rgbRef_grey hh v⟩, hsv2rgbRef_monotoneInV, hsv2rgbRef_placement, hsv2rgbRef_piecewise⟩

/-- A valid configuration's conversion has R183's properties, whichever function it is (R182). -/
theorem hsvLaws_of_valid {c : Cfg} (h : c.valid) : HsvLaws c.hsv2rgb := by
  obtain ⟨-, hlawful⟩ := h
  unfold Cfg.hsv2rgb
  cases hf : c.hsvFn with
  | reference => exact referenceConversionMeetsItsProperties
  | free k => exact (hf ▸ hlawful : (HsvFn.free k).lawful)

theorem hsv2rgb_of_reference {c : Cfg} (h : c.hsvFn = .reference) : c.hsv2rgb = hsv2rgbRef := by
  unfold Cfg.hsv2rgb
  rw [h]

end Sys2Proof

namespace Sys2Proof.Machine

/-- `HSV2RGB` returns the conversion of its operands and writes nothing (R182). -/
theorem exec_hsv2rgb (h : Hue) (sat v : Byte) (s : State) :
    exec (.hsv2rgb ⟨h, sat, v⟩) s = .next { s with out := .pixel (s.cfg.hsv2rgb h sat v) } := rfl

/-- Settles O60: in a valid configuration the operation returns what R183's properties fix. -/
theorem everyValidConversionMeetsItsProperties : Obligations.EveryValidConversionMeetsItsProperties := by
  intro s hvalid
  obtain ⟨hgrey, hmono, hplacement, -⟩ := hsvLaws_of_valid hvalid
  refine ⟨hsvLaws_of_valid hvalid, fun h hh => ⟨fun sat => ?black, fun v => ?grey⟩, ?colours⟩
  case black =>
    obtain ⟨hblack, -⟩ := hmono h sat hh
    rw [exec_hsv2rgb, hblack]
    rfl
  case grey =>
    obtain ⟨c, hc⟩ := hgrey h v hh
    refine ⟨c, by rw [exec_hsv2rgb, hc], fun href => ?_⟩
    rw [hsv2rgb_of_reference href, hsv2rgbRef_grey hh] at hc
    exact (congrArg Pixel.r hc).symm
  case colours =>
    obtain ⟨hred, hyellow, hgreen, hcyan, hblue, hmagenta⟩ := hplacement
    simp only [List.forall_mem_cons, exec_hsv2rgb, hred, hyellow, hgreen, hcyan, hblue, hmagenta]
    simp

/-- Settles O24: the result is the configuration's function of the operands, and for the reference function each channel
is R184's formula at its depth. -/
theorem hsv2rgbEffect : Obligations.Hsv2rgbEffect := by
  refine ⟨fun x c => ⟨c.toPixel x, ?pure⟩, fun s x href hh => ⟨s.cfg.toPixel x, rfl, ?sector⟩⟩
  case pure =>
    rintro s rfl
    exact exec_hsv2rgb x.h x.s x.v s
  case sector =>
    have hch := hsv2rgbRef_channel_toNat hh x.s x.v
    have htop := hsvQ_zero x.s.toNat x.v.toNat
    have hbottom := hsvQ_full x.s.toNat x.v.toNat
    rw [Cfg.toPixel, hsv2rgb_of_reference href]
    refine (congrArg₂ Prod.mk (hch .r) (congrArg₂ Prod.mk (hch .g) (hch .b))).trans ?_
    -- what `simp` leaves is a formula of R184 against the definition that states it
    rcases sector_cases hh with hk | hk | hk | hk | hk | hk <;>
      simp [hueDepth, hk, topChannel, bottomChannel, htop, hbottom, hsvP] <;> rfl

end Sys2Proof.Machine

/-! ## The hue sweep (R180) -/

namespace Sys2Proof

/-- Going on along the ring never lowers the sweep's hue (R180). -/
theorem hueInit_mono (c : Cfg) {i j : Nat} (h : i ≤ j) : c.hueInit i ≤ c.hueInit j := by
  unfold Cfg.hueInit; gcongr

/-- With at least one hue per pixel each pixel's hue is above the one before (R180). -/
theorem hueInit_strictMono {c : Cfg} (hn : 0 < c.n) (h : c.n ≤ c.hueMax + 1) {i j : Nat} (hij : i < j) :
    c.hueInit i < c.hueInit j := by
  have hstep : i * (c.hueMax + 1) + c.n ≤ j * (c.hueMax + 1) :=
    calc i * (c.hueMax + 1) + c.n ≤ i * (c.hueMax + 1) + (c.hueMax + 1) := by gcongr
      _ = (i + 1) * (c.hueMax + 1) := (Nat.succ_mul _ _).symm
      _ ≤ j * (c.hueMax + 1) := Nat.mul_le_mul_right _ hij
  calc c.hueInit i < (i * (c.hueMax + 1) + c.n) / c.n := by rw [Nat.add_div_right _ hn]; exact Nat.lt_succ_self _
    _ ≤ c.hueInit j := Nat.div_le_div_right hstep

/-- Every hue of the ring is a legal one (R180). -/
theorem hueInit_le {c : Cfg} {i : Nat} (h : i < c.n) : c.hueInit i ≤ c.hueMax :=
  Nat.le_of_lt_succ (Nat.div_lt_of_lt_mul (Nat.mul_lt_mul_of_pos_right h (Nat.succ_pos _)))

/-- R5's `HUE_MAX` is 1535. -/
theorem hueMax_of_wf {c : Cfg} (h : c.wf = true) : c.hueMax = 1535 := by
  simp only [Cfg.wf, Bool.and_eq_true, decide_eq_true_eq] at h
  tauto

/-- Settles O23: R5 gives 1536 hues. -/
theorem hueSweepRises : Obligations.HueSweepRises := by
  intro c hc
  refine ⟨by simp [Cfg.hueInit], fun i j hij hj => ⟨hueInit_mono c hij.le, fun hn => ?_⟩⟩
  exact hueInit_strictMono (Nat.zero_lt_of_lt hj) (by rw [hueMax_of_wf hc]; exact hn) hij

end Sys2Proof

namespace Sys2Proof.Machine

/-- `HUE.INIT` returns its hue and writes nothing (R180). -/
theorem exec_hueInit (i : Nat) (s : State) : exec (.hueInit i) s = .next { s with out := .hue (s.cfg.hueAt i) } := rfl

/-- Settles O22: on the ring the hue is the sweep's. -/
theorem hueInitIsTheSweep : Obligations.HueInitIsTheSweep := by
  intro s i hi
  exact ⟨by rw [exec_hueInit, hueAt_of_lt hi, Cfg.hueInit], hueInit_le hi⟩

end Sys2Proof.Machine

/-! ## The fade (R185, R193) -/

namespace Sys2Proof.Machine

open Sys2Proof.Claims

/-- A value at or below the floor does not decay (R185). -/
theorem fadeValue_of_le {c : Cfg} {v : Byte} (h : v ≤ c.vFloor) : fadeValue c v = v := if_neg (BitVec.not_lt.2 h)

/-- The decay in the naturals, for every value (R185): nothing at or below the floor, a step above it, the floor where a
step would pass it. -/
theorem fadeValue_toNat_cases (c : Cfg) (v : Byte) :
    (fadeValue c v).toNat =
      if v.toNat ≤ c.vFloor.toNat then v.toNat
      else if c.vDecay.toNat < v.toNat - c.vFloor.toNat then v.toNat - c.vDecay.toNat
      else c.vFloor.toNat := by
  split_ifs with hlow hstep
  · rw [fadeValue_of_le (BitVec.le_def.2 hlow)]
  all_goals
    rw [fadeValue_toNat c v (BitVec.le_def.2 (by omega))]
    omega

/-- Settles O26: cell by cell, with the decay in the naturals. -/
theorem fadeEffect : Obligations.FadeEffect := by
  intro s hlen hindex
  refine ⟨(fade s).returns .nothing, rfl, rfl, (length_fade s).trans hlen, fun i hi => ?_⟩
  have hcell : ((fade s).returns .nothing).readCell i = _ := readCell_fade hlen hindex hi
  rw [hcell]
  refine ⟨rfl, rfl, ?_⟩
  rw [← fadeValue_toNat_cases, ← apply_ite BitVec.toNat]

/-- `FADE` as it returns (R185). -/
def faded (s : State) : State := (fade s).returns .nothing

/-- Several `FADE`s in turn. -/
theorem execAll_replicate_fade (k : Nat) (s : State) : execAll (List.replicate k .fade) s = .next (faded^[k] s) := by
  induction k generalizing s with
  | zero => rfl
  | succ k ih => exact ih (faded s)

/-- What `FADE`s leave as it was, of what they read: the configuration, the index and the ring's length. -/
theorem faded_iterate_frame (k : Nat) (s : State) :
    (faded^[k] s).cfg = s.cfg ∧ (faded^[k] s).eng.highlightedIndex = s.eng.highlightedIndex ∧
      (faded^[k] s).eng.frameHSV.length = s.eng.frameHSV.length := by
  induction k with
  | zero => exact ⟨rfl, rfl, rfl⟩
  | succ k ih =>
    obtain ⟨hcfg, hindex, hlen⟩ := ih
    rw [Function.iterate_succ_apply']
    exact ⟨hcfg, hindex, (length_fade _).trans hlen⟩

section Ring

variable {s : State} (hlen : s.eng.frameHSV.length = s.cfg.n) (hindex : s.eng.highlightedIndex < s.cfg.n)

include hlen hindex

/-- One value after one more `FADE` (R185). -/
theorem readCell_faded_iterate_succ (k : Nat) {i : Nat} (hi : i < s.cfg.n) :
    ((faded^[k + 1] s).readCell i).v =
      if i = s.eng.highlightedIndex then s.cfg.vBright else fadeValue s.cfg ((faded^[k] s).readCell i).v := by
  obtain ⟨hcfg, hindex', hlen'⟩ := faded_iterate_frame k s
  rw [Function.iterate_succ_apply']
  generalize faded^[k] s = t at *
  have hcell : (faded t).readCell i = _ :=
    readCell_fade (by rw [hlen', hlen, hcfg]) (by rw [hindex', hcfg]; exact hindex) (by rw [hcfg]; exact hi)
  rw [hcell, hindex', hcfg]

/-- A pixel that is not highlighted, after `k` `FADE`s (R193). -/
theorem readCell_faded_iterate (k : Nat) {i : Nat} (hi : i < s.cfg.n) (hne : i ≠ s.eng.highlightedIndex) :
    ((faded^[k] s).readCell i).v = (fadeValue s.cfg)^[k] (s.readCell i).v := by
  induction k with
  | zero => rfl
  | succ k ih => rw [readCell_faded_iterate_succ hlen hindex k hi, if_neg hne, ih, Function.iterate_succ_apply']

end Ring

/-- The closed form of `k` decays from a value at or above the floor (R193). -/
theorem fadeValue_iterate_toNat {c : Cfg} {v : Byte} (h : c.vFloor ≤ v) (k : Nat) :
    ((fadeValue c)^[k] v).toNat = max c.vFloor.toNat (v.toNat - k * c.vDecay.toNat) := by
  induction k with
  | zero =>
    have := BitVec.le_def.1 h
    simp only [Function.iterate_zero_apply]
    omega
  | succ k ih =>
    have habove : c.vFloor ≤ (fadeValue c)^[k] v := BitVec.le_def.2 (by omega)
    rw [Function.iterate_succ_apply', fadeValue_toNat c _ habove, ih, Nat.succ_mul]
    omega

/-- Falling by `d` at a time from `v`, the floor `f` is reached from the `ceil((v - f) / d)`-th step on (R193). -/
theorem max_sub_mul_eq_floor_iff {f v d : Nat} (hd : 0 < d) (k : Nat) :
    max f (v - k * d) = f ↔ (v - f + (d - 1)) / d ≤ k := by
  rw [Nat.div_le_iff_le_mul_add_pred hd, Nat.mul_comm d k]
  omega

/-- Settles O27: the closed form of the iterated decay, and the step count it reaches the floor with. -/
theorem fadeConverges : Obligations.FadeConverges := by
  intro s k hdecay hlen hindex
  refine ⟨faded^[k] s, execAll_replicate_fade k s, fun hk => ?bright, fun i hi hne hfloor => ?fading⟩
  case bright =>
    obtain ⟨k, rfl⟩ := Nat.exists_eq_add_of_le' hk
    rw [readCell_faded_iterate_succ hlen hindex k hindex, if_pos rfl]
  case fading =>
    have hvalue := fadeValue_iterate_toNat hfloor k
    rw [readCell_faded_iterate hlen hindex k hi hne]
    exact ⟨hvalue, by rw [← BitVec.toNat_inj, hvalue, max_sub_mul_eq_floor_iff (BitVec.le_def.1 hdecay)]⟩

end Sys2Proof.Machine

/-! ## Rendering (R186 to R189, R192) -/

namespace Sys2Proof.Machine

/-- The palette of N colours is rendered as it stands (R187). -/
theorem renderPf_eq_palette {s : State} (h : s.cfg.palette.length = s.cfg.n) : renderPf s = s.cfg.palette := by
  refine List.ext_getElem ((length_renderPf s).trans h.symm) fun i _ hi => ?_
  simp [renderPf, paletteAt, hi]

/-- Settles O28: the frames are read entry by entry. -/
theorem renderOfFixedColours : Obligations.RenderOfFixedColours := by
  refine ⟨fun s => ⟨renderSh s, rfl, length_renderSh s, fun i hi => ?_⟩, fun s h => ?_⟩
  · simp [renderSh, hi]
  · rw [← renderPf_eq_palette h]
    rfl

/-- Settles O29: one record's conversion per entry, or one for all. -/
theorem renderFromStoredHsv : Obligations.RenderFromStoredHsv := by
  refine ⟨fun s => ⟨renderFh s, rfl, length_renderFh s, fun i hi => ?_⟩,
    fun s => ⟨renderSel s, rfl, length_renderSel s, fun px hpx => List.eq_of_mem_replicate hpx⟩⟩
  simp [renderFh, hi, Cfg.toPixel]

/-- The skip test as R192 words it. -/
theorem unchangedSinceRender_iff {s : State} :
    s.unchangedSinceRender = true ↔
      s.eng.lastRenderedValid = true ∧ s.eng.lastRenderedIndex = s.eng.highlightedIndex := by
  simp [State.unchangedSinceRender]

/-- The skip of SingleHighlight (R192). -/
theorem render_of_unchanged {s : State} (hm : s.eng.activeMode = .singleHighlight)
    (hu : s.unchangedSinceRender = true) : render s = (none, s) := by rw [render, hm]; exact if_pos hu

/-- SingleHighlight without the skip (R192). -/
theorem render_of_changed {s : State} (hm : s.eng.activeMode = .singleHighlight)
    (hu : ¬s.unchangedSinceRender = true) : render s = (some (renderSh s), s.noteRendered) := by
  rw [render, hm]; exact if_neg hu

theorem render_of_paletteFrame {s : State} (hm : s.eng.activeMode = .paletteFrame) :
    render s = (some (renderPf s), s.noteRendered) := by rw [render, hm]

theorem render_of_fadingHighlight {s : State} (hm : s.eng.activeMode = .fadingHighlight) :
    render s = (some (renderFh (fade s)), (fade s).noteRendered) := by rw [render, hm]

theorem render_of_selectedHighlightOnly {s : State} (hm : s.eng.activeMode = .selectedHighlightOnly) :
    render s = (some (renderSel s), s.noteRendered) := by rw [render, hm]

/-- The operation `RENDER` leaves what `render` leaves and returns its frame or `skip` (R192). -/
theorem exec_render {s t : State} {r : Option (List Pixel)} (h : render s = (r, t)) :
    exec .render s = .next (t.returns (renderResult r)) := by
  show execRender s = _
  rw [execRender, h]

/-- Settles O30: in each mode `RENDER` is that mode's branch. -/
theorem renderIsSelectedByMode : Obligations.RenderIsSelectedByMode := fun s =>
  ⟨fun hm hu => exec_render (render_of_unchanged hm (unchangedSinceRender_iff.2 hu)),
    fun hm hu => ⟨renderSh s, rfl, exec_render (render_of_changed hm (mt unchangedSinceRender_iff.1 hu))⟩,
    fun hm => ⟨renderPf s, rfl, exec_render (render_of_paletteFrame hm)⟩,
    fun hm => ⟨faded s, renderFh (faded s), rfl, rfl, exec_render (render_of_fadingHighlight hm)⟩,
    fun hm => ⟨renderSel s, rfl, exec_render (render_of_selectedHighlightOnly hm)⟩⟩

end Sys2Proof.Machine

/-! ## Operands beyond a rule's range (logs 4, 29, 37) -/

namespace Sys2Proof.Machine

/-- `QDEC.STEP` returns the table's step of differing samples, none of equal ones (R94, R152). -/
theorem exec_qdecStep (was is : Sample) (s : State) :
    exec (.qdecStep was is) s =
      .next { s with out := .step (if was = is then none else some (qdecStep was is)) } := rfl

/-- Settles O58: the two values are the configuration's own functions of the operands. -/
theorem unstatedResultsAreFreeValues : Obligations.UnstatedResultsAreFreeValues := by
  refine ⟨fun c i _ => ⟨c.hueAt i, ?hue⟩, fun c x _ => ⟨c.toPixel x, ?colour⟩, fun s q => ?step⟩
  case hue =>
    rintro s rfl
    exact exec_hueInit i s
  case colour =>
    rintro s rfl
    exact exec_hsv2rgb x.h x.s x.v s
  case step => rw [exec_qdecStep, if_pos rfl]

end Sys2Proof.Machine

/-! ## The dispatcher's operations (R220 to R226, R236) -/

namespace Sys2Proof.Machine

open Sys2Proof.Claims

/-- Settles O19: below N the two wraps are sums modulo N. -/
theorem rotateEventsMoveTheIndexModuloN : Obligations.RotateEventsMoveTheIndexModuloN := by
  intro s hs
  rw [← wrapinc_eq_mod hs, ← wrapdec_eq_mod hs]
  exact ⟨rfl, rfl⟩

/-- Settles O20: each of the four is one write of `eng.activeMode`. -/
theorem buttonEventsSwitchTheMode : Obligations.ButtonEventsSwitchTheMode :=
  fun _ => ⟨rfl, rfl, rfl, rfl⟩

/-- A rotate operation routes one rotate event (R220, R221). -/
theorem exec_eq_routeRot {i : Instr} (hi : i ∈ [Instr.evRotUp, Instr.evRotDown]) :
    ∃ r, ∀ s, exec i s = .next ((routeRot r s).returns .nothing) := by
  obtain rfl | rfl := List.mem_pair.1 hi
  · exact ⟨.up, fun _ => rfl⟩
  · exact ⟨.down, fun _ => rfl⟩

/-- A button operation routes one button event (R222, R223). -/
theorem exec_eq_routeBtn {i : Instr} (hi : i ∈ [Instr.evBtnDown, Instr.evBtnUp]) :
    ∃ b, ∀ s, exec i s = .next ((routeBtn b s).returns .nothing) := by
  obtain rfl | rfl := List.mem_pair.1 hi
  · exact ⟨.down, fun _ => rfl⟩
  · exact ⟨.up, fun _ => rfl⟩

/-- Neither routing reads what the other writes, nor the value an operation returned before it (R226). -/
theorem routeRot_returns_routeBtn (r : RotEvent) (b : BtnEvent) (x : OpResult) (s : State) :
    routeRot r ((routeBtn b s).returns x) = (route r b s).returns x := by
  cases r <;> cases b <;> rfl

theorem routeBtn_returns (b : BtnEvent) (x : OpResult) (s : State) :
    routeBtn b (s.returns x) = (routeBtn b s).returns x := by
  cases b <;> rfl

/-- Two operations in turn. -/
theorem execAll_pair {i j : Instr} {s t u : State} (hi : exec i s = .next t) (hj : exec j t = .next u) :
    execAll [i, j] s = .next u := by
  simp [execAll, hi, hj]

/-- Settles O21: in either order the two operations leave what routing both events leaves. -/
theorem eventOrderIsUnobservable : Obligations.EventOrderIsUnobservable := by
  intro s i hi j hj
  obtain ⟨r, hrot⟩ := exec_eq_routeRot hi
  obtain ⟨b, hbtn⟩ := exec_eq_routeBtn hj
  refine ⟨(route r b s).returns .nothing, execAll_pair (hrot s) ?rotateFirst, execAll_pair (hbtn s) ?buttonFirst⟩
  case rotateFirst =>
    rw [hbtn, routeBtn_returns]
    rfl
  case buttonFirst =>
    rw [hrot, routeRot_returns_routeBtn]
    rfl

end Sys2Proof.Machine

/-! ## A tick's operations in their order (R235) -/

namespace Sys2Proof.Machine

/-- `BTN.SAMPLE` does not read the value an operation returned before it (R155, log 13). -/
theorem exec_btnSample_returns (x : OpResult) (s : State) : exec .btnSample (s.returns x) = exec .btnSample s :=
  (exec_btnSample_congr (s := s) (t := s.returns x) rfl rfl).trans (exec_btnSample s).symm

/-- Rendering neither reads nor writes the value an operation returned before it (R192, log 13). -/
theorem render_returns (x : OpResult) (s : State) : render (s.returns x) = ((render s).1, (render s).2.returns x) := by
  cases hm : s.eng.activeMode with
  | singleHighlight =>
    by_cases hu : s.unchangedSinceRender = true
    · rw [render_of_unchanged hm hu]
      exact render_of_unchanged hm hu
    · rw [render_of_changed hm hu]
      exact render_of_changed hm hu
  | paletteFrame =>
    rw [render_of_paletteFrame hm]
    exact render_of_paletteFrame hm
  | fadingHighlight =>
    rw [render_of_fadingHighlight hm]
    exact render_of_fadingHighlight hm
  | selectedHighlightOnly =>
    rw [render_of_selectedHighlightOnly hm]
    exact render_of_selectedHighlightOnly hm

/-- `RENDER` does not read the value an operation returned before it (R192, log 13). -/
theorem exec_render_returns (x : OpResult) (s : State) :
    exec .render (s.returns x) = .next ((render s).2.returns (renderResult (render s).1)) :=
  exec_render (t := (render s).2.returns x) (render_returns x s)

/-- Sending pixels neither reads nor writes the value an operation returned before it (R126, log 13). -/
theorem txPixels_returns (x : OpResult) (i : Nat) (f : List Pixel) (s : State) :
    txPixels i f (s.returns x) = (txPixels i f s).returns x := by
  induction f generalizing i s with
  | nil => rfl
  | cons p rest ih => exact ih (i + 1) (txPixel p (s.setTxPixel i))

/-- `TX.FRAME` does not read the value an operation returned before it (R126, log 13). -/
theorem exec_txFrame_returns (x : OpResult) (f : List Pixel) (s : State) :
    exec (.txFrame f) (s.returns x) = .next ((txFrame f s).returns .nothing) := by
  have hpixels := txPixels_returns x 0 f (s.setIrqMask true)
  exact congrArg (fun t => Host.Outcome.next ((showGap (t.setIrqMask false)).endFrame.returns .nothing)) hpixels

/-- What the handler of a rotate event leaves: without an event none runs, not even to return nothing (R235). -/
def handleRot : RotEvent → State → State
  | .none, s => s
  | r, s => (routeRot r s).returns .nothing

/-- What the handler of a button event leaves (R235). -/
def handleBtn : BtnEvent → State → State
  | .none, s => s
  | b, s => (routeBtn b s).returns .nothing

/-- The two handlers in turn route both events; they may leave another value in the record of the last result (R226). -/
theorem handle_eq_route (r : RotEvent) (b : BtnEvent) (x : OpResult) (s : State) :
    ∃ y, handleBtn b (handleRot r (s.returns x)) = (route r b s).returns y := by
  cases r <;> cases b <;> exact ⟨_, rfl⟩

/-- Phase SAMPLE is the two sampling operations (R157, R235). -/
theorem exec_samplePhase (s : State) :
    ∃ a, exec .qdecSample s = .next a ∧ a.out = .rot (samplePhase s).1 ∧
      exec .btnSample a = .next ((samplePhase s).2.2.returns (.btn (samplePhase s).2.1)) :=
  ⟨_, rfl, rfl, exec_btnSample_returns _ _⟩

/-- A tick after its phase SAMPLE: both events routed, then `RENDER`'s frame sent, if any (R235). -/
theorem exec_tick_of_samplePhase {p : Pins} {s t : State} {r : RotEvent} {v : BtnEvent}
    (h : samplePhase (s.setPins p) = (r, v, t)) :
    exec (.tick p) s =
      .next ((transmit (render (route r v t)).1 (render (route r v t)).2).returns .nothing) := by
  have hroute : sampleAndRoute (s.setPins p) = route r v t := by rw [sampleAndRoute, h]
  rw [← hroute]
  rfl

/-- Settles O42: the two samples and the two handlers leave the tick's own state before `RENDER`, but for the record of
the last result, which neither `RENDER` nor `TX.FRAME` reads. -/
theorem tickIsTheFixedOrder : Obligations.TickIsTheFixedOrder := by
  intro s p
  obtain ⟨a, hqdec, hrot, hbtn⟩ := exec_samplePhase (s.setPins p)
  obtain ⟨⟨r, v, t⟩, hsampled⟩ : ∃ x, samplePhase (s.setPins p) = x := ⟨_, rfl⟩
  rw [hsampled] at hrot hbtn
  obtain ⟨y, hdispatched⟩ := handle_eq_route r v (.btn v) t
  refine ⟨a, _, handleRot r (t.returns (.btn v)), _, _, r, v, hqdec, hrot, hbtn, rfl, ?rotate, ?button,
    hdispatched ▸ exec_render_returns y (route r v t), ?transmit⟩
  case rotate => cases r <;> rfl
  case button => cases v <;> rfl
  case transmit =>
    rw [exec_tick_of_samplePhase hsampled]
    cases (render (route r v t)).1 with
    | none => exact .inl ⟨rfl, rfl⟩
    | some f => exact .inr ⟨f, rfl, (exec_txFrame_returns _ f _).symm⟩

end Sys2Proof.Machine

/-! ## One frame a tick (R192, R235) -/

namespace Sys2Proof.Machine

open Sys2Proof.Claims

/-- When `RENDER` skips: SingleHighlight, and an index already rendered (R192). -/
theorem skipped_of_render_none {s : State} (h : (render s).1 = none) :
    s.eng.activeMode = .singleHighlight ∧ s.eng.lastRenderedValid = true ∧
      s.eng.lastRenderedIndex = s.eng.highlightedIndex := by
  rcases render_cases s with ⟨-, hmode, hunchanged⟩ | ⟨f, t, hr, -⟩
  · exact ⟨hmode, unchangedSinceRender_iff.1 hunchanged⟩
  · rw [hr] at h
    cases h

/-- With a frame `RENDER` notes the index it has rendered (R192). -/
theorem noted_of_render_some {s : State} {f : List Pixel} (h : (render s).1 = some f) :
    (render s).2.eng.lastRenderedValid = true ∧
      (render s).2.eng.lastRenderedIndex = (render s).2.eng.highlightedIndex := by
  rcases render_cases s with ⟨hr, -⟩ | ⟨g, t, hr, -⟩
  · rw [hr] at h
    cases h
  · rw [hr]
    exact ⟨rfl, rfl⟩

/-- The symbols of a frame by its bits (R97, R126). -/
theorem frameSyms_eq_bitSyms (c : Cfg) (f : List Pixel) :
    frameSyms c f = .mask true :: bitSyms c (f.flatMap wireBits) ++ [.mask false, .gap c.gapShowUs] := by
  rw [frameSyms_eq, bracketSyms, bytes_frameBytes]

/-- What was rendered last stays as noted until `RENDER` (R36, R192). -/
theorem sampleAndRoute_lastRendered (s : State) :
    (sampleAndRoute s).eng.lastRenderedValid = s.eng.lastRenderedValid ∧
      (sampleAndRoute s).eng.lastRenderedIndex = s.eng.lastRenderedIndex := by
  rw [sampleAndRoute_frame]
  exact ⟨rfl, rfl⟩

/-- Settles O43: the tick's `RENDER` skips, and nothing is sent, or it gives a frame of N pixels, and that is sent. -/
theorem tickSendsOneFrameOrNone : Obligations.TickSendsOneFrameOrNone := by
  intro s p
  refine ⟨(tick p s).returns .nothing, rfl, ?_⟩
  rcases tick_cases p s with ⟨htick, hskip⟩ | ⟨f, e, hrender, hlength, htick⟩ <;> rw [htick]
  · obtain ⟨hmode, hvalid, hindex⟩ := skipped_of_render_none hskip
    obtain ⟨hvalid', hindex'⟩ := sampleAndRoute_lastRendered (s.setPins p)
    exact .inl ⟨sampleAndRoute_wire _, sampleAndRoute_drv _, hmode, hvalid'.symm.trans hvalid,
      hindex'.symm.trans hindex⟩
  · have hsent := txFrame_spec f { sampleAndRoute (s.setPins p) with eng := e }
    have hnoted := noted_of_render_some (congrArg Prod.fst hrender)
    rw [hrender] at hnoted
    obtain ⟨hvalid, hindex⟩ := hnoted
    refine .inr ⟨f, hlength, hsent.irqMask, ?_, ?_, ?_⟩
    · rw [State.returns_eng, hsent.eng_eq]
      exact hvalid
    · rw [State.returns_eng, hsent.eng_eq]
      exact hindex
    · rw [State.returns_wire, hsent.wire_eq]
      simp only [sampleAndRoute_wire, sampleAndRoute_cfg, State.setPins_wire, State.setPins_cfg, frameSyms_eq_bitSyms,
        List.append_assoc]

end Sys2Proof.Machine

/-! ## The block's life with nothing placed (R239, R240) -/

namespace Sys2Proof.Machine

/-- Settles O3: with nothing queued the step is the loop's, on which `INIT` sets the boot bit and a tick keeps it. -/
theorem unattendedStepsAreInitThenTicks : Obligations.UnattendedStepsAreInitThenTicks := by
  constructor
  · intro s hqueue hinit
    refine ⟨(initialise s).returns .nothing, rfl, ?_, rfl, (initialise_queue s).trans hqueue⟩
    rw [step_nil hqueue, runLoop, hinit]
    rfl
  · intro s hqueue hinit
    let p := pinsOfWord (Config.drawPinWord s.fresh)
    obtain ⟨-, hqueue', hinit', -⟩ := tick_carried p { s with fresh := s.fresh + 1 }
    refine ⟨p, _, rfl, ?_, hinit'.trans hinit, hqueue'.trans hqueue⟩
    rw [step_nil hqueue, runLoop, if_pos hinit]
    rfl

end Sys2Proof.Machine

/-! ## Reset, and the first tick after it (R47, R280, R283) -/

namespace Sys2Proof.Machine

/-- Settles O48: `RESET` is the power-on, which gives each of these fields its value by definition. -/
theorem resetEffect : Obligations.ResetEffect := fun s => ⟨(powerOn s).returns .nothing, rfl, rfl⟩

/-- From the sample 0, the reset value of `enc.was`, no transition counts (R94, R283). -/
theorem qdecStep_from_zero (q : Sample) : qdecStep 0 q = .zero := by revert q; decide

/-- A tick's button event, by the change of the button and its level (R155, R235). -/
theorem samplePhase_btnEvent (s : State) :
    (samplePhase s).2.1 = if s.pins.pressed = s.enc.buttonLast then .none else edgeEvent s.pins.pressed := by
  have hpins : (qdecSample s).2.pins = s.pins := by rw [qdecSample_frame]
  have hlast : (qdecSample s).2.enc.buttonLast = s.enc.buttonLast := absorb_buttonLast s _ _
  rw [← hpins, ← hlast]
  exact btnSample_event (qdecSample s).2

/-- A tick on which the button has not changed keeps the mode (R155, R235). -/
theorem tick_activeMode_of_same {p : Pins} {s : State} (h : p.pressed = s.enc.buttonLast) :
    (tick p s).eng.activeMode = s.eng.activeMode := by
  rw [tick_activeMode, samplePhase_btnEvent]
  exact congrArg (fun b => (routeBtn b s).eng.activeMode) (if_pos h)

/-- A tick on which the button is found pressed confirms (R155, R222, R224). -/
theorem tick_activeMode_of_press {p : Pins} {s : State} (hnow : p.pressed = true) (hlast : s.enc.buttonLast = false) :
    (tick p s).eng.activeMode = .selectedHighlightOnly := by
  have hevent : (samplePhase (s.setPins p)).2.1 = .down := by
    rw [samplePhase_btnEvent, State.setPins_pins, State.setPins_enc, hnow, hlast]
    rfl
  rw [tick_activeMode, hevent]
  rfl

/-- What a cell reads depends on the configuration and the stored frame alone (R31). -/
theorem readCell_congr {s t : State} (hcfg : t.cfg = s.cfg) (hframe : t.eng.frameHSV = s.eng.frameHSV) (i : Nat) :
    t.readCell i = s.readCell i := by
  simp only [State.readCell, State.cell, hcfg, hframe]

/-- A tick that ends in FadingHighlight fades once: bright where the index now is, decayed elsewhere (R185, R192). -/
theorem tick_value_of_fadingHighlight {p : Pins} {s : State} (hm : (tick p s).eng.activeMode = .fadingHighlight)
    (hlen : s.eng.frameHSV.length = s.cfg.n) (hindex : s.eng.highlightedIndex < s.cfg.n) {i : Nat} (hi : i < s.cfg.n) :
    ((tick p s).readCell i).v =
      if i = (tick p s).eng.highlightedIndex then s.cfg.vBright else fadeValue s.cfg (s.readCell i).v := by
  have hindex' : (tick p s).eng.highlightedIndex < s.cfg.n := by
    rw [tick_highlightedIndex]
    exact routeRot_lt hindex
  have hcfg : (sampleAndRoute (s.setPins p)).cfg = s.cfg := sampleAndRoute_cfg _
  have hframe : (sampleAndRoute (s.setPins p)).eng.frameHSV = s.eng.frameHSV := sampleAndRoute_frameHSV _
  have hbefore := readCell_congr hcfg hframe i
  have hafter := readCell_congr ((tick_cfg p s).trans (hcfg.symm.trans (render_cfg _).symm))
    (congrArg EngineState.frameHSV (tick_eng p s)) i
  rw [tick_eng, render_highlightedIndex] at hindex' ⊢
  rw [tick_eng, render_activeMode] at hm
  rw [hafter, ← hbefore, render_of_fadingHighlight hm]
  generalize sampleAndRoute (s.setPins p) = u at *
  have hcell : (fade u).noteRendered.readCell i = _ :=
    readCell_fade (by rw [hframe, hcfg, hlen]) (by rw [hcfg]; exact hindex') (by rw [hcfg]; exact hi)
  rw [hcell, hcfg]

/-- R5's ring has a pixel. -/
theorem one_le_n_of_wf {c : Cfg} (h : c.wf = true) : 1 ≤ c.n := by
  simp only [Cfg.wf, Bool.and_eq_true, decide_eq_true_eq] at h
  tauto

/-- Settles O46: from sample 0 nothing counts, so the index and the accumulator stay; the button was released; and a value
at the floor does not decay. -/
theorem firstTickAfterReset : Obligations.FirstTickAfterReset := by
  intro s p k hwf henc heng
  have hn := one_le_n_of_wf hwf
  have hlast : s.enc.buttonLast = false := by rw [henc]; rfl
  have hzero : qdecStep s.enc.was p.sample = .zero := by rw [henc]; exact qdecStep_from_zero _
  have hstart : s.eng.highlightedIndex = 0 := by rw [heng]; rfl
  have hindex : (tick p s).eng.highlightedIndex = 0 := by
    rw [tick_index_of_absorb, absorb_event_of_zero hzero]
    exact hstart
  have hacc : (tick p s).enc.acc = 0 := by
    rw [tick_acc, absorb_acc_of_zero hzero, State.setPins_enc, henc]
    rfl
  have hkept : p.btn = true → (tick p s).eng.activeMode = s.cfg.resetMode := by
    intro hbtn
    rw [tick_activeMode_of_same (by rw [Pins.pressed, hbtn, hlast]; rfl), heng]
    rfl
  obtain ⟨_, hwas, _⟩ := tick_enc p s
  refine ⟨(tick p s).returns .nothing, rfl, hindex, hacc, hwas, fun hbtn => ?pressed, hkept,
    fun hbtn hmode i hi => ?bright⟩
  case pressed => exact tick_activeMode_of_press (by rw [Pins.pressed, hbtn]; rfl) hlast
  case bright =>
    have hfloor : s.readCell i = _ := readCell_of_resetFrame (by rw [heng]; rfl) hi
    have hlen : s.eng.frameHSV.length = s.cfg.n := by rw [heng]; simp [EngineState.reset, resetFrame]
    have hvalue := tick_value_of_fadingHighlight ((hkept hbtn).trans hmode) hlen (by rw [hstart]; exact hn) hi
    rw [hindex, hfloor, fadeValue_of_le (BitVec.le_refl _)] at hvalue
    exact hvalue

end Sys2Proof.Machine
